-- ==== Sys2Proof/Word.lean ====
section
/-! DEFINITION. The widths of the machine's values.

A register, a CSR value and an address are held in 64 bits on every hart. On a 32-bit hart (`XLEN` = 32) only bits
31:0 of an `XLEN`-bit register exist; the operations of `Sys2Proof/Machine/` cut what they write to `XLEN` bits, so
that bits 63:32 of the stored value stay zero there (log entry 1). A counter or a configuration register is 64 bits
wide on every `XLEN` (10_state.md R28 to R31). -/

namespace Sys2Proof

/-- A 64-bit value: a register, a CSR value, an address, a counter (10_state.md R20, R21, R28). -/
abbrev Word := BitVec 64

/-- One byte of instruction memory (20_memory.md R71). -/
abbrev Byte := BitVec 8

/-- A 32-bit counter mask or counter-enable register; bit `i` belongs to counter `i` (10_state.md R26, R27, R48). -/
abbrev Bits32 := BitVec 32

/-- The index of a counter, 0 to 31: 0 the cycle counter, 1 the time counter, 2 the instructions-retired counter,
3 to 31 the hardware performance-monitoring counters (10_state.md R48). -/
abbrev CounterIx := Fin 32

end Sys2Proof
end

