-- ==== Sys2Proof/Config.lean ====
section
/-! DEFINITION. The implementation parameters of 00_scope.md R5 and R7, as plain data fixed for a run, and the free
values of the model: constants with no body, of which nothing can be proved but that they are some value.

A parameter that is a function in the spec (a WARL legaliser) is a `Legaliser`: either a mask of writable bits, or an
arbitrary function that the model leaves unnamed (log entry 3). -/

namespace Sys2Proof

/-- `XLEN`, the width of a CSR and of an `x` register (00_scope.md R5). -/
inductive Xlen
  | rv32
  | rv64
  deriving DecidableEq, Repr, Inhabited

/-- A WARL legaliser (00_scope.md R7; 92_eei_decisions.md D8, D18): which value a register holds after a write. -/
inductive Legaliser
  /-- The bits of `writable` take the written value, every other bit keeps the old one. -/
  | mask (writable : Word)
  /-- An arbitrary function of the old and the written value: the constant `Config.freeLegal` at `id`. -/
  | free (id : Nat)
  deriving DecidableEq, Repr, Inhabited

/-- `TVAL_POLICY` (60_exceptions.md R202): what an illegal or virtual instruction exception records as trap value. -/
inductive TvalPolicy
  | zero
  | instructionBits
  deriving DecidableEq, Repr, Inhabited

/-- `AiaEnv` (00_scope.md R7; 45_lcofi.md R193; 92_eei_decisions.md D19): the relation between the LCOFI bits, the
pending of an LCOFI, and whether and when it is taken. -/
inductive AiaEnv
  /-- The default instance: the relation of 45_lcofi.md R189, R190, and a pending and enabled LCOFI is taken before the
  next instruction starts (60_exceptions.md R206; log entries 11 and 12). -/
  | prompt
  /-- The relation of the default instance; whether a pending and enabled LCOFI is taken now is a free value. -/
  | delayed (id : Nat)
  /-- No relation is assumed: bit 13 of each register is one storage bit, what the environment does to the pending,
  enable and view bits between two instructions is a free value, and so is whether a mode takes an LCOFI (log entry 24). -/
  | unconstrained (id : Nat)
  deriving DecidableEq, Repr, Inhabited

/-- What an unconstrained `AiaEnv` decides anew at each step: bit 13 of each register it may move, and which mode takes
an LCOFI (45_lcofi.md R193; log entry 24). -/
inductive AiaDraw
  | mip
  | mie
  | sip
  | sie
  | mvip
  | hvip
  | vsip
  | vsie
  | takeM
  | takeHs
  | takeVs
  deriving DecidableEq, Repr

/-- `TrapEntry` (00_scope.md R7; 92_eei_decisions.md D5): what taking a trap does to the hart. -/
inductive TrapEntry
  /-- The default instance: the entry sequence of 60_exceptions.md R212. -/
  | standard
  /-- An arbitrary function of the state, the cause and the trap value: `Config.freeTrapEntry` at `id` (log entry 25). -/
  | free (id : Nat)
  deriving DecidableEq, Repr, Inhabited

/-- What an access to `sireg*` or `vsireg*` does on a hart without Smcdeleg while the select register holds a value of
0x40..0x5F. The spec says both (log entry 17). -/
inductive AbsentWindow
  /-- What the rules for CDE = 0 say (41_cde_and_delegation.md R121, R123; 42_indirect_counter_access.md R142). -/
  | followsCde
  /-- Out of scope (93_implementation_defined.md U2). -/
  | outOfScope
  deriving DecidableEq, Repr, Inhabited

/-- The parameters of the hart (00_scope.md R5, R7). No step changes them. -/
structure Config where
  /-- `XLEN`. -/
  xlen : Xlen
  /-- `HAS_SMCDELEG`: Smcdeleg and Ssccfg. -/
  hasSmcdeleg : Bool
  /-- `HAS_ZICNTR`: footnote 1 of Table 1 (42_indirect_counter_access.md R137). -/
  hasZicntr : Bool
  /-- `HAS_ZIHPM`: footnote 2 of Table 1. -/
  hasZihpm : Bool
  /-- `HAS_SSCOFPMF`: footnote 3 of Table 1; OF, `scountovf`, the xINH bits of an event selector. -/
  hasSscofpmf : Bool
  /-- `HAS_SMCNTRPMF`: footnote 4 of Table 1; `mcyclecfg`, `minstretcfg`. -/
  hasSmcntrpmf : Bool
  /-- `HAS_SMSTATEEN`: `mstateen0`, `hstateen0`. -/
  hasSmstateen : Bool
  /-- `HAS_H`: the hypervisor extension. -/
  hasH : Bool
  /-- `HAS_SMAIA`: `mvip`, `mvien`. -/
  hasSmaia : Bool
  /-- `HAS_SSAIA`: with `HAS_H`, `hvien` and bit 13 of `hvip`. -/
  hasSsaia : Bool
  /-- `MIDELEG13_WRITABLE` (45_lcofi.md R188). -/
  mideleg13Writable : Bool
  /-- `HIDELEG13_WRITABLE` (45_lcofi.md R188). -/
  hideleg13Writable : Bool
  /-- S-mode exists: the "exists when" column of 10_state.md R23 (log entry 2). -/
  hasSMode : Bool
  /-- Smcsrind/Sscsrind is implemented: the "exists when" column of 10_state.md R23 (log entry 2). -/
  hasSscsrind : Bool
  /-- Bit 13 of `mvien` and `mvip` exists although the condition of 45_lcofi.md R185 does not hold (U11; log entry 11). -/
  mvLcofiExtra : Bool
  /-- Bit 13 of `hvien` and `hvip` exists although the condition of 45_lcofi.md R186 does not hold (U11; log entry 11). -/
  hvLcofiExtra : Bool
  /-- `MCOUNTEREN_WMASK`: the writable bits of `mcounteren`. -/
  mcounterenWmask : Bits32
  /-- `MCOUNTINHIBIT_WMASK`: the writable bits of `mcountinhibit`; bit 1 is clear. -/
  mcountinhibitWmask : Bits32
  /-- The writable bits of `scounteren`, the model's own parameter (log entry 2). -/
  scounterenWmask : Bits32
  /-- The writable bits of `hcounteren`, the model's own parameter (log entry 2). -/
  hcounterenWmask : Bits32
  /-- `COUNTER_WMASK[i]`: the writable bits of counter `i`; slot 1 is not used. -/
  counterWmask : Vector Word 32
  /-- `CFG_LEGAL[i]`: the legaliser of `mcyclecfg` (0), `minstretcfg` (2), `mhpmevent i`; slot 1 is not used. -/
  cfgLegal : Vector Legaliser 32
  /-- `SISELECT_LEGAL`, where `siselect` is not bound to hold the written value. -/
  siselectLegal : Legaliser
  /-- `siselect` holds every value of 0..0xFFF, the minimum of 10_state.md R34 (GK13); where it is false, `siselectLegal`
  decides as 92_eei_decisions.md D8 has it (log entry 20). -/
  siselectMinimum : Bool
  /-- `VSISELECT_LEGAL`, where `vsiselect` is not bound to hold the written value. -/
  vsiselectLegal : Legaliser
  /-- What a write does to the bits of a register that this spec does not define (40_csr_instructions.md R113; log entry 4). -/
  otherLegal : Legaliser
  /-- `TVAL_POLICY`. -/
  tvalPolicy : TvalPolicy
  /-- `AiaEnv`: the relation between the LCOFI bits, and when an LCOFI is taken. -/
  aiaEnv : AiaEnv
  /-- `TrapEntry`. -/
  trapEntry : TrapEntry
  /-- What the window is on a hart without Smcdeleg (U2; log entry 17); of no effect with Smcdeleg. -/
  absentWindow : AbsentWindow
  /-- `RESET_VECTOR`. -/
  resetVector : Word
  deriving DecidableEq, Repr, Inhabited

/-- FREE VALUE. The function behind `Legaliser.free id`: the register it legalises, the old value, the written value. -/
opaque Config.freeLegal : Nat → Nat → Word → Word → Word

/-- FREE VALUE. `d` of `CounterEnv` (70_reset_and_hazards.md R238): by how much counter `i` advances at the draw `n`. -/
opaque Config.freeDelta : Nat → CounterIx → Nat

/-- FREE VALUE. Whether the retirement of the instruction that itself restarts `minstret` is counted, at the draw `n`
(20_memory.md R77; log entry 9). -/
opaque Config.freeRestartCounts : Nat → Bool

/-- FREE VALUE. Whether a pending and enabled LCOFI is taken now, for `AiaEnv.delayed id` at the draw `n`. -/
opaque Config.freeTaken : Nat → Nat → Bool

/-- FREE VALUE. What `AiaEnv.unconstrained id` decides at the draw `n` (log entry 24). -/
opaque Config.freeAia : Nat → Nat → AiaDraw → Bool

/-- The bits of `mcyclecfg` and `minstretcfg` that exist: MINH, SINH, UINH, VSINH, VUINH (10_state.md R31). -/
def Config.counterCfgBits : Word := 0x7C00000000000000

/-- The parameters of the hart that `State.reset` describes: every extension present on a 64-bit hart, as in the
conventions of 95_test_vectors.md part 0, with the reserved bits of 10_state.md R31 not writable (log entry 5). -/
def Config.reset : Config where
  xlen := .rv64
  hasSmcdeleg := true
  hasZicntr := true
  hasZihpm := true
  hasSscofpmf := true
  hasSmcntrpmf := true
  hasSmstateen := true
  hasH := true
  hasSmaia := true
  hasSsaia := true
  mideleg13Writable := true
  hideleg13Writable := true
  hasSMode := true
  hasSscsrind := true
  mvLcofiExtra := false
  hvLcofiExtra := false
  mcounterenWmask := 0xFFFFFFFF
  mcountinhibitWmask := 0xFFFFFFFD
  scounterenWmask := 0xFFFFFFFF
  hcounterenWmask := 0xFFFFFFFF
  counterWmask := (Vector.replicate 32 0xFFFFFFFFFFFFFFFF).set 1 0
  cfgLegal := (((Vector.replicate 32 (.mask 0xFFFFFFFFFFFFFFFF)).set 0 (.mask Config.counterCfgBits)).set 1 (.mask 0)).set 2
    (.mask Config.counterCfgBits)
  siselectLegal := .mask 0xFFFFFFFFFFFFFFFF
  siselectMinimum := true
  vsiselectLegal := .mask 0xFFFFFFFFFFFFFFFF
  otherLegal := .mask 0xFFFFFFFFFFFFFFFF
  tvalPolicy := .instructionBits
  aiaEnv := .prompt
  trapEntry := .standard
  absentWindow := .outOfScope
  resetVector := 0

end Sys2Proof
end

