-- ==== Sys2Proof/Syntax.lean ====
section
/-! DEFINITION. The instructions in scope: the six CSR instructions of spec/opcode_table.json, with the operands of
30_encoding.md R86. -/

namespace Sys2Proof

/-- The number of a general register, 0 to 31 (10_state.md R20). -/
abbrev Reg := Fin 32

/-- A CSR number, an unsigned 12-bit number used as is (10_state.md R23; 30_encoding.md R88). -/
abbrev CsrNum := BitVec 12

/-- The 5-bit unsigned immediate of an immediate form (30_encoding.md R88). -/
abbrev Uimm := BitVec 5

/-- The instructions, one constructor for each row of spec/opcode_table.json. -/
inductive Instr
  /-- CSRRW, atomic read/write CSR (40_csr_instructions.md R100). -/
  | csrrw (rd : Reg) (csr : CsrNum) (rs1 : Reg)
  /-- CSRRS, atomic read and set bits in CSR (R101). -/
  | csrrs (rd : Reg) (csr : CsrNum) (rs1 : Reg)
  /-- CSRRC, atomic read and clear bits in CSR (R102). -/
  | csrrc (rd : Reg) (csr : CsrNum) (rs1 : Reg)
  /-- CSRRWI, read/write CSR with immediate (R103). -/
  | csrrwi (rd : Reg) (csr : CsrNum) (uimm : Uimm)
  /-- CSRRSI, read and set bits in CSR with immediate (R104). -/
  | csrrsi (rd : Reg) (csr : CsrNum) (uimm : Uimm)
  /-- CSRRCI, read and clear bits in CSR with immediate (R105). -/
  | csrrci (rd : Reg) (csr : CsrNum) (uimm : Uimm)
  deriving DecidableEq, Repr

end Sys2Proof
end

