-- ==== Sys2Proof/Machine/CsrMap.lean ====
section
/-! DEFINITION. The CSR address space (10_state.md R23, 30_encoding.md R90): which register a CSR number names, its
level, whether it is read-only, and the bit-field helpers of an `XLEN`-bit access (30_encoding.md R89). -/

namespace Sys2Proof.Machine

/-- Which of the six indirect registers of `sireg*` or `vsireg*` an access names; `reg k` is the spec's `sireg[k]`
(10_state.md R35, R37). -/
inductive IndirectReg
  | reg1
  | reg2
  | reg3
  | reg4
  | reg5
  | reg6
  deriving DecidableEq, Repr

/-- Which part of a 64-bit register a CSR number reaches: the number without an `h` reaches the whole register when
`XLEN` = 64 and bits 31:0 when `XLEN` = 32, the number with an `h` reaches bits 63:32 (30_encoding.md R89). -/
inductive Half
  | low
  | high
  deriving DecidableEq, Repr

/-- The CSRs of 10_state.md R23, by name. -/
inductive Csr
  | scountinhibit
  | siselect
  | sireg (k : IndirectReg)
  | vsiselect
  | vsireg (k : IndirectReg)
  | scountovf
  | scounteren
  | sie
  | sip
  | vsie
  | vsip
  | mcounteren
  | menvcfg (h : Half)
  | mstateen0 (h : Half)
  | hstateen0 (h : Half)
  | mideleg
  | hideleg
  | hcounteren
  | mvien
  | mvip
  | hvien
  | hvip
  | mie
  | mip
  | mcountinhibit
  /-- `mcyclecfg` (0), `minstretcfg` (2), `mhpmevent i` and their `h` halves. -/
  | config (i : CounterIx) (h : Half)
  /-- `mcycle` (0), `minstret` (2), `mhpmcounter i` and their `h` halves. -/
  | counter (i : CounterIx) (h : Half)
  /-- `cycle` (0), `time` (1), `instret` (2), `hpmcounter i` and their `h` halves. -/
  | userCounter (i : CounterIx) (h : Half)
  /-- A number that names no CSR on any hart: 0x154 and 0x254 (30_encoding.md R93; log entry 6). -/
  | absent
  deriving DecidableEq, Repr

/-- The numbers of 10_state.md R23 that stand alone. -/
def Csr.ofSingle (n : Nat) : Option Csr :=
  match n with
  | 0x120 => some .scountinhibit
  | 0x150 => some .siselect
  | 0x151 => some (.sireg .reg1)
  | 0x152 => some (.sireg .reg2)
  | 0x153 => some (.sireg .reg3)
  | 0x154 => some .absent
  | 0x155 => some (.sireg .reg4)
  | 0x156 => some (.sireg .reg5)
  | 0x157 => some (.sireg .reg6)
  | 0x250 => some .vsiselect
  | 0x251 => some (.vsireg .reg1)
  | 0x252 => some (.vsireg .reg2)
  | 0x253 => some (.vsireg .reg3)
  | 0x254 => some .absent
  | 0x255 => some (.vsireg .reg4)
  | 0x256 => some (.vsireg .reg5)
  | 0x257 => some (.vsireg .reg6)
  | 0xDA0 => some .scountovf
  | 0x106 => some .scounteren
  | 0x104 => some .sie
  | 0x144 => some .sip
  | 0x204 => some .vsie
  | 0x244 => some .vsip
  | 0x306 => some .mcounteren
  | 0x30A => some (.menvcfg .low)
  | 0x31A => some (.menvcfg .high)
  | 0x30C => some (.mstateen0 .low)
  | 0x31C => some (.mstateen0 .high)
  | 0x60C => some (.hstateen0 .low)
  | 0x61C => some (.hstateen0 .high)
  | 0x303 => some .mideleg
  | 0x603 => some .hideleg
  | 0x606 => some .hcounteren
  | 0x308 => some .mvien
  | 0x309 => some .mvip
  | 0x608 => some .hvien
  | 0x645 => some .hvip
  | 0x304 => some .mie
  | 0x344 => some .mip
  | _ => none

/-- The run 0x320..0x33F: `mcountinhibit`, `mcyclecfg`, `minstretcfg`, `mhpmevent3` .. `mhpmevent31`; `i` is the
number less 0x320. -/
def Csr.ofConfigRun (i : CounterIx) : Csr :=
  if i = 0 then .mcountinhibit else if i = 1 then .config 0 .low else .config i .low

/-- The run 0x720..0x73F: the `h` halves of the configuration registers; 0x720 is not in 10_state.md R23. -/
def Csr.ofConfigHighRun (i : CounterIx) : Option Csr :=
  if i = 0 then none else if i = 1 then some (.config 0 .high) else some (.config i .high)

/-- The runs 0xB00..0xB1F and 0xB80..0xB9F: the machine counters; 0xB01 and 0xB81 are not in 10_state.md R23, since
counter 1 has no machine-level CSR (R28). -/
def Csr.ofCounterRun (i : CounterIx) (h : Half) : Option Csr :=
  if i = 1 then none else some (.counter i h)

/-- The CSR that a number names: the table of 10_state.md R23, and 0x154 and 0x254 of 30_encoding.md R93. A number
that stands in neither is `none`: it is out of scope (30_encoding.md R92). -/
def Csr.ofNumber (n : CsrNum) : Option Csr :=
  let i : CounterIx := (n.extractLsb' 0 5).toFin
  match (n.extractLsb' 5 7).toNat with
  | 0x19 => some (Csr.ofConfigRun i)
  | 0x39 => Csr.ofConfigHighRun i
  | 0x58 => Csr.ofCounterRun i .low
  | 0x5C => Csr.ofCounterRun i .high
  | 0x60 => some (.userCounter i .low)
  | 0x64 => some (.userCounter i .high)
  | _ => Csr.ofSingle n.toNat

/-- The lowest privilege that may access a CSR, from bits 9:8 of its number (10_state.md R23). -/
inductive Level
  | user
  | supervisor
  | hypervisor
  | machine
  deriving DecidableEq, Repr

/-- `level(addr)` (10_state.md R23). -/
def level (n : CsrNum) : Level :=
  match (n.extractLsb' 8 2).toNat with
  | 0 => .user
  | 1 => .supervisor
  | 2 => .hypervisor
  | _ => .machine

/-- `addr[11:10] = 0b11`: the CSR is read-only (10_state.md R23). -/
def readOnlyNumber (n : CsrNum) : Bool :=
  n.extractLsb' 10 2 == 3#2

/-- `XLEN` as a number (00_scope.md R5). -/
def xlenBits : Xlen → Nat
  | .rv32 => 32
  | .rv64 => 64

/-- The value cut to `XLEN` bits and held in 64 (30_encoding.md R89). -/
def trunc (x : Xlen) (w : Word) : Word :=
  match x with
  | .rv32 => w &&& 0xFFFFFFFF
  | .rv64 => w

/-- What a read of one half of a 64-bit register returns (10_state.md R25, R28; 30_encoding.md R89). -/
def readHalf (x : Xlen) (h : Half) (reg : Word) : Word :=
  match x, h with
  | .rv64, .low => reg
  | .rv32, .low => reg &&& 0xFFFFFFFF
  | _, .high => reg >>> 32

/-- The 64-bit register with one half replaced by the written value; the other half keeps its bits
(42_indirect_counter_access.md R139, R149). -/
def writeHalf (x : Xlen) (h : Half) (reg v : Word) : Word :=
  match x, h with
  | .rv64, .low => v
  | .rv32, .low => (reg &&& 0xFFFFFFFF00000000) ||| (v &&& 0xFFFFFFFF)
  | _, .high => (v <<< 32) ||| (reg &&& 0xFFFFFFFF)

/-- The `n`-bit vector whose bit `i` is `f i`. -/
def bitsOf (f : Nat → Bool) : (n : Nat) → BitVec n
  | 0 => 0#0
  | n + 1 => BitVec.cons (f n) (bitsOf f n)

/-- The register with bit `i` set to `b` and every other bit kept. -/
def withBit (w : Word) (i : Nat) (b : Bool) : Word :=
  (w &&& ~~~(1#64 <<< i)) ||| (if b then 1#64 <<< i else 0)

/-- The value a legaliser leaves: `tag` names the register, for the free legaliser (00_scope.md R7). -/
def legalise (l : Legaliser) (tag : Nat) (old new : Word) : Word :=
  match l with
  | .mask m => (new &&& m) ||| (old &&& ~~~m)
  | .free id => Config.freeLegal id tag old new

end Sys2Proof.Machine
end

