-- ==== Sys2Proof/WellFormed.lean ====
section
/-! DEFINITION. Which instructions this spec gives a meaning to.

The operand types bound every register number, immediate and CSR number to its field (30_encoding.md R86). What is
left to check is that the CSR number is one this spec knows (30_encoding.md R90, R92): any other is out of scope. -/

namespace Sys2Proof

/-- The CSR number an instruction names (30_encoding.md R86). -/
def Instr.csrNum : Instr → CsrNum
  | .csrrw _ csr _ => csr
  | .csrrs _ csr _ => csr
  | .csrrc _ csr _ => csr
  | .csrrwi _ csr _ => csr
  | .csrrsi _ csr _ => csr
  | .csrrci _ csr _ => csr

/-- The instruction names a CSR number of this spec (30_encoding.md R90, R92). -/
def Instr.WellFormed (i : Instr) : Bool :=
  (Machine.Csr.ofNumber i.csrNum).isSome

end Sys2Proof
end

