-- ==== Sys2Proof/Decode.lean ====
section
/-! DEFINITION. Decoding and encoding (30_encoding.md): bytes to an instruction, and back. Decoding is total; what is
no CSR instruction is rejected by name (30_encoding.md R92; log entry 7). -/

namespace Sys2Proof

/-- Why the decoder gives no instruction. Each is the spec's `OutOfScope` (30_encoding.md R87, R92; 92_eei_decisions.md D3). -/
inductive Reject
  /-- Fewer than four bytes are given. -/
  | tooShort
  /-- Bits 1:0 are not 0b11, or bits 4:2 are 0b111: the instruction is not 32 bits long (R85). -/
  | notThirtyTwoBit
  /-- Bits 6:0 are not the SYSTEM opcode 0x73 (R85). -/
  | notSystem
  /-- `funct3` is 0b000 or 0b100: a SYSTEM instruction that is no CSR instruction (R87). -/
  | systemNotCsr
  deriving DecidableEq, Repr

/-- The SYSTEM major opcode (30_encoding.md R85). -/
def systemOpcode : BitVec 7 := 0x73

/-- `funct3` of an instruction (30_encoding.md R87). -/
def Instr.funct3 : Instr → BitVec 3
  | .csrrw _ _ _ => 1
  | .csrrs _ _ _ => 2
  | .csrrc _ _ _ => 3
  | .csrrwi _ _ _ => 5
  | .csrrsi _ _ _ => 6
  | .csrrci _ _ _ => 7

/-- A register number read from a 5-bit field. -/
def regOfBits (b : BitVec 5) : Reg := b.toFin

/-- The 5-bit field that holds a register number. -/
def bitsOfReg (r : Reg) : BitVec 5 := BitVec.ofFin r

/-- The instruction of a 32-bit word (30_encoding.md R85 to R88): `csr` in bits 31:20, `rs1` or `uimm` in 19:15,
`funct3` in 14:12, `rd` in 11:7, the opcode in 6:0. -/
def decodeWord (w : BitVec 32) : Except Reject Instr :=
  let csr := w.extractLsb' 20 12
  let src := w.extractLsb' 15 5
  let rd := regOfBits (w.extractLsb' 7 5)
  if w.extractLsb' 0 2 != 3#2 || w.extractLsb' 2 3 == 7#3 then .error .notThirtyTwoBit
  else if w.extractLsb' 0 7 != systemOpcode then .error .notSystem
  else
    match (w.extractLsb' 12 3).toNat with
    | 1 => .ok (.csrrw rd csr (regOfBits src))
    | 2 => .ok (.csrrs rd csr (regOfBits src))
    | 3 => .ok (.csrrc rd csr (regOfBits src))
    | 5 => .ok (.csrrwi rd csr src)
    | 6 => .ok (.csrrsi rd csr src)
    | 7 => .ok (.csrrci rd csr src)
    | _ => .error .systemNotCsr

/-- The word of four bytes, the lowest-addressed byte first (20_memory.md R71). -/
def wordOfBytes (b0 b1 b2 b3 : Byte) : BitVec 32 := b3 ++ b2 ++ b1 ++ b0

/-- The four bytes of a word, in ascending addresses (20_memory.md R71). -/
def bytesOfWord (w : BitVec 32) : List Byte :=
  [w.extractLsb' 0 8, w.extractLsb' 8 8, w.extractLsb' 16 8, w.extractLsb' 24 8]

/-- The instruction at the front of a list of bytes, with the bytes after it. -/
def decode : List Byte → Except Reject (Instr × List Byte)
  | b0 :: b1 :: b2 :: b3 :: rest => (decodeWord (wordOfBytes b0 b1 b2 b3)).map fun i => (i, rest)
  | _ => .error .tooShort

/-- Bits 19:15 of an instruction: `rs1` or `uimm` (30_encoding.md R86). -/
def Instr.srcBits : Instr → BitVec 5
  | .csrrw _ _ rs1 => bitsOfReg rs1
  | .csrrs _ _ rs1 => bitsOfReg rs1
  | .csrrc _ _ rs1 => bitsOfReg rs1
  | .csrrwi _ _ uimm => uimm
  | .csrrsi _ _ uimm => uimm
  | .csrrci _ _ uimm => uimm

/-- The destination register of an instruction (30_encoding.md R86). -/
def Instr.rd : Instr → Reg
  | .csrrw rd _ _ => rd
  | .csrrs rd _ _ => rd
  | .csrrc rd _ _ => rd
  | .csrrwi rd _ _ => rd
  | .csrrsi rd _ _ => rd
  | .csrrci rd _ _ => rd

/-- The word of an instruction (30_encoding.md R86, R87). -/
def encode (i : Instr) : BitVec 32 :=
  i.csrNum ++ i.srcBits ++ i.funct3 ++ bitsOfReg i.rd ++ systemOpcode

/-- The bytes of an instruction as they lie in memory. -/
def encodeBytes (i : Instr) : List Byte := bytesOfWord (encode i)

/-- The instruction the decoder reads from an instruction whose bits, as spec/opcode_table.json numbers them, are `w`. -/
def decodeTableWord (nbits w : Nat) : Option Instr :=
  match decode (bytesOfWord (BitVec.ofNat 32 (w % 2 ^ nbits))) with
  | .ok (i, _) => some i
  | .error _ => none

end Sys2Proof
end

