-- ==== Sys2Proof/Machine/State.lean ====
section
/-! DEFINITION. The state of the hart (10_state.md), the reasons a step can stop, and the state after reset.

Every register is held at its full width: an `XLEN`-bit register in 64 bits (bits 63:32 zero when `XLEN` = 32), a
counter or configuration register in its 64 bits. Alias CSRs (`sireg*`, `vsireg*`, `scountinhibit`, `scountovf`, the
user-level counter views, and by default bit 13 of `sip` and `vsip`) have no storage: `Machine/Registers.lean` computes
them. -/

namespace Sys2Proof.Machine

/-- `priv`: the current privilege, with `V` the mode of 10_state.md R22. -/
inductive Priv
  | u
  | s
  | m
  deriving DecidableEq, Repr, Inhabited

/-- The two exceptions of the extension (60_exceptions.md R200, R201). -/
inductive Exc
  /-- Illegal instruction exception, code 2 (R200). -/
  | illegal
  /-- Virtual instruction exception, code 22 (R201). -/
  | virtual
  deriving DecidableEq, Repr

/-- The fields of `mstatus` that trap entry into M-mode writes (60_exceptions.md R212). -/
structure Mstatus where
  mie : Bool
  mpie : Bool
  mpp : Priv
  mpv : Bool
  gva : Bool
  deriving DecidableEq, Repr, Inhabited

/-- The fields of `sstatus`, and of `vsstatus`, that trap entry writes (60_exceptions.md R212); `spp` is true for S. -/
structure Sstatus where
  sie : Bool
  spie : Bool
  spp : Bool
  deriving DecidableEq, Repr, Inhabited

/-- The fields of `hstatus` that trap entry into HS-mode writes (60_exceptions.md R212); `spvp` is true for S. -/
structure Hstatus where
  spv : Bool
  spvp : Bool
  gva : Bool
  deriving DecidableEq, Repr, Inhabited

/-- The state of one hart and the instruction memory it fetches from. -/
structure State where
  /-- The parameters of the implementation (00_scope.md R5, R7); no step changes them. -/
  cfg : Config
  /-- The model's own counter of draws of a free value; each step advances it (log entry 8). -/
  draws : Nat
  /-- `x0` .. `x31` (10_state.md R20); slot 0 is never read. -/
  x : Vector Word 32
  /-- The program counter (R21). -/
  pc : Word
  /-- The current privilege (R22). -/
  priv : Priv
  /-- `V`, the virtualisation mode (R22). -/
  virt : Bool
  /-- Instruction memory: pairs of an address and a byte, addresses strictly rising (20_memory.md R70; log entry 7). -/
  mem : List Host.Cell
  /-- `menvcfg`, 64 bits on every `XLEN`; bit 60 is CDE (R24). -/
  menvcfg : Word
  /-- `mcounteren` (R26). -/
  mcounteren : Bits32
  /-- `scounteren` (R41). -/
  scounteren : Bits32
  /-- `hcounteren` (R41). -/
  hcounteren : Bits32
  /-- `mcountinhibit` (R27). -/
  mcountinhibit : Bits32
  /-- `CTR`: `mcycle` (0), `minstret` (2), `mhpmcounter i`; slot 1 is the platform's `mtime`, which the CSR `time`
  shows (R28, R29, R33; log entry 10). -/
  ctr : Vector Word 32
  /-- `CFG`: `mcyclecfg` (0), `minstretcfg` (2), `mhpmevent i` (R30, R31, R33); slot 1 is not used. -/
  ccfg : Vector Word 32
  /-- `siselect` (R34). -/
  siselect : Word
  /-- `vsiselect` (R36). -/
  vsiselect : Word
  /-- `mstateen0`, 64 bits on every `XLEN` (R40). -/
  mstateen0 : Word
  /-- `hstateen0`, 64 bits on every `XLEN` (R40). -/
  hstateen0 : Word
  /-- `mie` (R47). -/
  mie : Word
  /-- `mip` (R47). -/
  mip : Word
  /-- `sie`: its own bit 13 (45_lcofi.md R189) and the bits this spec does not define. -/
  sie : Word
  /-- `sip`: the bits this spec does not define; bit 13 is a view, or a storage bit where `AiaEnv` assumes no relation
  (R47, 45_lcofi.md R189, R193). -/
  sip : Word
  /-- `mvien` (R43). -/
  mvien : Word
  /-- `mvip` (R43). -/
  mvip : Word
  /-- `hvien` (R44). -/
  hvien : Word
  /-- `hvip` (R44). -/
  hvip : Word
  /-- `vsie`: its own bit 13 (45_lcofi.md R190) and the bits this spec does not define. -/
  vsie : Word
  /-- `vsip`: the bits this spec does not define; bit 13 is a view, or a storage bit where `AiaEnv` assumes no relation
  (R45, 45_lcofi.md R190, R193). -/
  vsip : Word
  /-- `mideleg` (R46). -/
  mideleg : Word
  /-- `hideleg` (R46). -/
  hideleg : Word
  /-- `medeleg` (60_exceptions.md R212, R215). -/
  medeleg : Word
  /-- `hedeleg` (R212, R215); bit 22 is read-only zero. -/
  hedeleg : Word
  /-- `mstatus` (R212). -/
  mstatus : Mstatus
  /-- `mtvec`: BASE and, in bits 1:0, the vector mode (R212; log entry 13). -/
  mtvec : Word
  /-- `mepc` (R212). -/
  mepc : Word
  /-- `mcause` (R212). -/
  mcause : Word
  /-- `mtval` (R202, R212). -/
  mtval : Word
  /-- `mtval2` (R212). -/
  mtval2 : Word
  /-- `mtinst` (R212). -/
  mtinst : Word
  /-- `sstatus` (R212). -/
  sstatus : Sstatus
  /-- `hstatus` (R212). -/
  hstatus : Hstatus
  /-- `stvec` (R212). -/
  stvec : Word
  /-- `sepc` (R212). -/
  sepc : Word
  /-- `scause` (R212). -/
  scause : Word
  /-- `stval` (R202, R212). -/
  stval : Word
  /-- `htval` (R212). -/
  htval : Word
  /-- `htinst` (R212). -/
  htinst : Word
  /-- `vsstatus` (R212). -/
  vsstatus : Sstatus
  /-- `vstvec` (R212). -/
  vstvec : Word
  /-- `vsepc` (R212). -/
  vsepc : Word
  /-- `vscause` (R212). -/
  vscause : Word
  /-- `vstval` (R202, R212). -/
  vstval : Word
  deriving DecidableEq, Repr, Inhabited

/-- Why the machine stops with a fault. -/
inductive Fault
  /-- Raised by the fetch when a byte of the instruction word at `pc` is not in memory: no program is there
  (20_memory.md R70; 92_eei_decisions.md D3; log entry 7). Safe: the model stops where a hart would fetch something. -/
  | fetchNoByte
  deriving DecidableEq, Repr

/-- Why the machine gives no meaning to a step: the spec's `OutOfScope` (00_scope.md R9), each case under its own name. -/
inductive Refusal
  /-- Raised by `exec` for an instruction that has no meaning yet; no arm of `exec` raises it now. Safe. -/
  | notModelled (mnemonic : String)
  /-- Raised by a CSR access whose number is not in 10_state.md R23 (30_encoding.md R92; 40_csr_instructions.md R107
  step 1). Safe. -/
  | csrNumberOutOfScope
  /-- Raised by an access to `sireg*` or `vsireg*` whose select register holds a value outside 0x40..0x5F
  (42_indirect_counter_access.md R156; 40_csr_instructions.md R111), or any value on a hart without Smcdeleg that gives
  the range no meaning (93_implementation_defined.md U2). Safe. -/
  | otherIndirect
  /-- Raised when an instruction completes at the last word of the address space, so that `pc + 4` wraps
  (10_state.md R21). Safe. -/
  | pcWraps
  /-- Raised by the fetch when `pc` is not 4-byte aligned (20_memory.md R72). Safe. -/
  | fetchMisaligned
  /-- Raised by the fetch when the word at `pc` is none of the six CSR instructions (30_encoding.md R92). Safe. -/
  | notCsrInstruction (why : Reject)
  deriving DecidableEq, Repr

/-- The state right after reset (10_state.md R56, 70_reset_and_hazards.md R230): M-mode with `V` = 0 at the reset
vector, the writable bits of `mstateen0` zero. The spec gives no other reset value: the model takes zero for every
other register, on the implementation `Config.reset` (log entries 5 and 14). -/
def State.reset : State where
  cfg := Config.reset
  draws := 0
  x := Vector.replicate 32 0
  pc := Config.reset.resetVector
  priv := .m
  virt := false
  mem := []
  menvcfg := 0
  mcounteren := 0
  scounteren := 0
  hcounteren := 0
  mcountinhibit := 0
  ctr := Vector.replicate 32 0
  ccfg := Vector.replicate 32 0
  siselect := 0
  vsiselect := 0
  mstateen0 := 0
  hstateen0 := 0
  mie := 0
  mip := 0
  sie := 0
  sip := 0
  mvien := 0
  mvip := 0
  hvien := 0
  hvip := 0
  vsie := 0
  vsip := 0
  mideleg := 0
  hideleg := 0
  medeleg := 0
  hedeleg := 0
  mstatus := { mie := false, mpie := false, mpp := .u, mpv := false, gva := false }
  mtvec := 0
  mepc := 0
  mcause := 0
  mtval := 0
  mtval2 := 0
  mtinst := 0
  sstatus := { sie := false, spie := false, spp := false }
  hstatus := { spv := false, spvp := false, gva := false }
  stvec := 0
  sepc := 0
  scause := 0
  stval := 0
  htval := 0
  htinst := 0
  vsstatus := { sie := false, spie := false, spp := false }
  vstvec := 0
  vsepc := 0
  vscause := 0
  vstval := 0

end Sys2Proof.Machine
end

