-- ==== Sys2Proof/Machine/Ops.lean ====
section
/-! DEFINITION. The named operations over registers, memory and modes, and taking an exception or an interrupt: the
one shared operation `enterTrap`, with the return from a trap beside it. -/

namespace Sys2Proof

/-- FREE VALUE. The function behind `TrapEntry.free id` (00_scope.md R7: from the state, the cause and the trap value to
a state), of whose result `freeTrapEntry` takes the part a trap may change. -/
opaque Config.freeTrapEntry : Nat → Machine.State → Word → Word → Machine.State

end Sys2Proof

namespace Sys2Proof.Machine

/-! ## Registers -/

/-- `x[i]` (00_scope.md R9, 10_state.md R20): `x0` reads zero; a register has `XLEN` bits. -/
def State.reg (s : State) (i : Reg) : Word :=
  if i = 0 then 0 else trunc s.cfg.xlen (s.x.get i)

/-- `x[i] <- v` (00_scope.md R9, 10_state.md R20): a write to `x0` is discarded. -/
def State.setReg (s : State) (i : Reg) (v : Word) : State :=
  { s with x := if i = 0 then s.x else s.x.set i.val (trunc s.cfg.xlen v) i.isLt }

/-- `CTR[i]` (10_state.md R33). -/
def State.counter (s : State) (i : CounterIx) : Word := s.ctr.get i

/-- `CFG[i]` (10_state.md R33). -/
def State.counterCfg (s : State) (i : CounterIx) : Word := s.ccfg.get i

/-- `CTR[i] <- v`. -/
def State.setCounter (s : State) (i : CounterIx) (v : Word) : State :=
  { s with ctr := s.ctr.set i.val v i.isLt }

/-- `CFG[i] <- v`. -/
def State.setCounterCfg (s : State) (i : CounterIx) (v : Word) : State :=
  { s with ccfg := s.ccfg.set i.val v i.isLt }

/-- `CSR[menvcfg].CDE`: bit 60, read-only zero without Smcdeleg (10_state.md R24, 41_cde_and_delegation.md R123). -/
def State.cde (s : State) : Bool :=
  s.cfg.hasSmcdeleg && s.menvcfg.getLsbD 60

/-- `delegated(i)` (41_cde_and_delegation.md R124). -/
def State.delegated (s : State) (i : CounterIx) : Bool :=
  s.cde && s.mcounteren.getLsbD i.val

/-- `in_window(v)` (00_scope.md R9). -/
def inWindow (v : Word) : Bool :=
  0x40 ≤ v.toNat && v.toNat ≤ 0x5F

/-- `CSR[siselect] - 0x40`, the counter a select value in the window names (42_indirect_counter_access.md R135). -/
def windowIx (v : Word) : CounterIx :=
  (v.extractLsb' 0 5).toFin

/-! ## Modes -/

/-- The mode, the pair of `priv` and `V` as one name (00_scope.md R9, 10_state.md R22). -/
inductive Mode
  | m
  | s
  | u
  | vs
  | vu
  deriving DecidableEq, Repr

/-- The current mode (00_scope.md R9). `V` = 1 never holds with `priv` = M (10_state.md R22). -/
def State.mode (s : State) : Mode :=
  match s.priv, s.virt with
  | .m, _ => .m
  | .s, false => .s
  | .u, false => .u
  | .s, true => .vs
  | .u, true => .vu

/-! ## Memory -/

/-- Instruction memory (20_memory.md R70). An address that is not listed holds no byte (log entry 7). -/
abbrev Memory := List Host.Cell

/-- The byte at an address, if memory lists one. -/
def Memory.read (m : Memory) (a : Nat) : Option Byte :=
  match m with
  | [] => none
  | (b, v) :: rest => if b = a then some v else Memory.read rest a

/-- Memory with the byte at an address replaced; the addresses stay strictly rising. -/
def Memory.write (m : Memory) (a : Nat) (v : Byte) : Memory :=
  match m with
  | [] => [(a, v)]
  | (b, w) :: rest =>
    if a < b then (a, v) :: (b, w) :: rest
    else if a = b then (a, v) :: rest
    else (b, w) :: Memory.write rest a v

/-- The canonical form: addresses strictly rising. No entry can equal what an unlisted address reads as, since an
unlisted address holds no byte. -/
def Memory.wf (m : Memory) : Bool :=
  match m with
  | [] => true
  | (a, _) :: rest => (rest.all fun c => a < c.1) && Memory.wf rest

/-- Memory with a list of bytes stored from an address upwards. -/
def Memory.writeBytes (m : Memory) (a : Nat) (bytes : List Byte) : Memory :=
  match bytes with
  | [] => m
  | b :: rest => Memory.writeBytes (Memory.write m a b) (a + 1) rest

/-- The bytes of the `n` addresses from `a` upwards, if memory lists all of them. -/
def Memory.readBytes (m : Memory) (a : Nat) : (n : Nat) → Option (List Byte)
  | 0 => some []
  | n + 1 =>
    match Memory.read m a, Memory.readBytes m (a + 1) n with
    | some b, some rest => some (b :: rest)
    | _, _ => none

/-! ## Taking an exception or an interrupt (60_exceptions.md R212) -/

/-- The mode that takes a trap: `T` of 60_exceptions.md R212. -/
inductive TrapTarget
  | m
  | hs
  | vs
  deriving DecidableEq, Repr

/-- The exception code (60_exceptions.md R200, R201). -/
def Exc.code : Exc → Nat
  | .illegal => 2
  | .virtual => 22

/-- `medeleg[code]`; without S-mode there is no such register and nothing is delegated. -/
def State.medelegBit (s : State) (code : Nat) : Bool :=
  s.cfg.hasSMode && s.medeleg.getLsbD code

/-- `hedeleg[code]`; bit 22 is read-only zero, so a virtual instruction exception never goes to VS-mode (R212). -/
def State.hedelegBit (s : State) (code : Nat) : Bool :=
  code != 22 && s.hedeleg.getLsbD code

/-- The mode that takes an exception (60_exceptions.md R212): M, unless the trapping mode is not M and `medeleg`
delegates the code to HS; from `V` = 1, if `hedeleg` delegates it too, VS. -/
def State.trapTarget (s : State) (e : Exc) : TrapTarget :=
  if s.priv != .m && s.medelegBit e.code then
    if s.virt && s.hedelegBit e.code then .vs else .hs
  else .m

/-- The BASE of a trap vector register: the register without its two mode bits (log entry 13). -/
def vectorBase (tvec : Word) : Word := tvec &&& ~~~3#64

/-- Where a trap enters: at the vector base; an interrupt under the vectored mode enters at BASE + 4 * code, since
vectoring applies to interrupts only (60_exceptions.md R212; log entry 13). -/
def vectorEntry (x : Xlen) (tvec : Word) (interruptCode : Option Nat) : Word :=
  match interruptCode with
  | none => trunc x (vectorBase tvec)
  | some code =>
    if tvec &&& 3#64 = 1#64 then trunc x (vectorBase tvec + BitVec.ofNat 64 (4 * code)) else trunc x (vectorBase tvec)

/-- The default instance of `TrapEntry`, the trap entry sequence (60_exceptions.md R212): the registers of the mode that
takes the trap save the pc, the cause, the trap value and the status; then the mode and the pc change. The exception
program counter is the address of the instruction that did not complete. That `hstatus.GVA` is cleared for V = 0 too,
where the line of R212 can be read either way, is the model's choice (DEDUCED, log entry 16). -/
def standardTrapEntry (t : TrapTarget) (cause tval : Word) (interruptCode : Option Nat) (s : State) : State :=
  match t with
  | .m =>
    { s with
      mepc := s.pc, mcause := cause, mtval := tval, mtval2 := 0, mtinst := 0
      mstatus := { mpie := s.mstatus.mie, mie := false, mpp := s.priv, mpv := s.virt, gva := false }
      priv := .m, virt := false, pc := vectorEntry s.cfg.xlen s.mtvec interruptCode }
  | .hs =>
    { s with
      sepc := s.pc, scause := cause, stval := tval, htval := 0, htinst := 0
      sstatus := { spie := s.sstatus.sie, sie := false, spp := s.priv == .s }
      hstatus := { spv := s.virt, spvp := if s.virt then s.priv == .s else s.hstatus.spvp, gva := false }
      priv := .s, virt := false, pc := vectorEntry s.cfg.xlen s.stvec interruptCode }
  | .vs =>
    { s with
      vsepc := s.pc, vscause := cause, vstval := tval
      vsstatus := { spie := s.vsstatus.sie, sie := false, spp := s.priv == .s }
      priv := .s, virt := true, pc := vectorEntry s.cfg.xlen s.vstvec interruptCode }

/-- The mode a free `TrapEntry` enters is one the hart has (10_state.md R22); else M-mode stands for it. -/
def State.legalPriv (s : State) (p : Priv) : Priv :=
  if p = .s ∧ s.cfg.hasSMode = false then .m else p

/-- A free `TrapEntry`: each register that the default sequence writes takes an unnamed value, and so do the mode, one
that the hart has, and the pc, an aligned address; nothing else changes (60_exceptions.md R200, R201, R212; log entry
25). -/
def freeTrapEntry (id : Nat) (cause tval : Word) (s : State) : State :=
  let t := Config.freeTrapEntry id s cause tval
  let p := s.legalPriv t.priv
  { s with
    mepc := t.mepc, mcause := t.mcause, mtval := t.mtval, mtval2 := t.mtval2, mtinst := t.mtinst, mstatus := t.mstatus
    sepc := t.sepc, scause := t.scause, stval := t.stval, htval := t.htval, htinst := t.htinst, sstatus := t.sstatus
    hstatus := t.hstatus
    vsepc := t.vsepc, vscause := t.vscause, vstval := t.vstval, vsstatus := t.vsstatus
    priv := p, virt := t.virt && s.cfg.hasH && p != .m, pc := trunc s.cfg.xlen (vectorBase t.pc) }

/-- Taking a trap: what the parameter `TrapEntry` says (00_scope.md R7; 92_eei_decisions.md D5). -/
def enterTrap (t : TrapTarget) (cause tval : Word) (interruptCode : Option Nat) (s : State) : State :=
  match s.cfg.trapEntry with
  | .standard => standardTrapEntry t cause tval interruptCode s
  | .free id => freeTrapEntry id cause tval s

/-- The trap value of an illegal or virtual instruction exception: zero, or the instruction's bits zero-extended
(60_exceptions.md R202). -/
def State.trapValue (s : State) (word : BitVec 32) : Word :=
  match s.cfg.tvalPolicy with
  | .zero => 0
  | .instructionBits => word.setWidth 64

/-- Raising an exception: the instruction is abandoned, no state of it is written, and the trap is taken
(00_scope.md R9; 60_exceptions.md R200, R201, R212). -/
def takeException (e : Exc) (word : BitVec 32) (s : State) : State :=
  enterTrap (s.trapTarget e) (BitVec.ofNat 64 e.code) (s.trapValue word) none s

/-- The interrupt number of the LCOFI (10_state.md R42). -/
def lcofiCode : Nat := 13

/-- The cause an LCOFI records: code 13 with the interrupt flag, the top bit of the cause register (60_exceptions.md
R207; log entry 12). -/
def lcofiCause (x : Xlen) : Word :=
  match x with
  | .rv32 => 0x8000000D
  | .rv64 => 0x800000000000000D

/-- Taking an LCOFI into a mode, before the instruction at `pc` starts (60_exceptions.md R206, R207; log entry 12). -/
def takeLcofi (t : TrapTarget) (s : State) : State :=
  enterTrap t (lcofiCause s.cfg.xlen) 0 (some lcofiCode) s

/-- Returning from a trap: `priv`, `V` and the interrupt-enable bit are restored from the saved fields and control
goes to the saved pc (60_exceptions.md R213). MRET and SRET are outside the spec, so no instruction of this model
performs it (log entry 15). -/
def returnFromTrap (t : TrapTarget) (s : State) : State :=
  match t with
  | .m =>
    { s with
      priv := s.mstatus.mpp, virt := s.mstatus.mpv, pc := s.mepc
      mstatus := { s.mstatus with mie := s.mstatus.mpie } }
  | .hs =>
    { s with
      priv := if s.sstatus.spp then .s else .u, virt := s.hstatus.spv, pc := s.sepc
      sstatus := { s.sstatus with sie := s.sstatus.spie } }
  | .vs =>
    { s with
      priv := if s.vsstatus.spp then .s else .u, virt := true, pc := s.vsepc
      vsstatus := { s.vsstatus with sie := s.vsstatus.spie } }

end Sys2Proof.Machine
end

