-- ==== Sys2Proof/Machine/Flags.lean ====
section
/-! DEFINITION. The flags. The hart has no condition codes (10_state.md R49); the nearest things are the overflow flag
OF and the inhibit bits of a counter's configuration register (R30, R31), and bit 13, the LCOFI bit, of the interrupt
registers (R42 to R47, 45_lcofi.md). -/

namespace Sys2Proof.Machine

/-! ## OF and the inhibit bits of a counter -/

/-- The counter has the inhibit bits MINH, SINH, UINH, VSINH, VUINH: an event selector with Sscofpmf, a counter
configuration register with Smcntrpmf (10_state.md R30, R31). -/
def hasInhibitBits (c : Config) (i : CounterIx) : Bool :=
  if i = 0 ∨ i = 2 then c.hasSmcntrpmf else if i = 1 then false else c.hasSscofpmf

/-- `MINH_MASK(i)` (42_indirect_counter_access.md R149): bit 62 where the counter has the inhibit bits, else nothing. -/
def minhMask (c : Config) (i : CounterIx) : Word :=
  if hasInhibitBits c i then 0x4000000000000000 else 0

/-- The counter has an OF bit: an event selector with Sscofpmf (10_state.md R30, R31). -/
def hasOverflowFlag (c : Config) (i : CounterIx) : Bool :=
  3 ≤ i.val && c.hasSscofpmf

/-- `CFG[i].OF`, bit 63 (10_state.md R30); a counter without the flag has it clear. -/
def State.overflowFlag (s : State) (i : CounterIx) : Bool :=
  hasOverflowFlag s.cfg i && (s.counterCfg i).getLsbD 63

/-- The position of the bit that keeps a counter from counting in a mode (10_state.md R30, R31). -/
def inhibitBit : Mode → Nat
  | .m => 62
  | .s => 61
  | .u => 60
  | .vs => 59
  | .vu => 58

/-- The counter is filtered in the current mode by its xINH bit, where that bit exists (70_reset_and_hazards.md R238). -/
def State.filtered (s : State) (i : CounterIx) : Bool :=
  hasInhibitBits s.cfg i && (s.counterCfg i).getLsbD (inhibitBit s.mode)

/-- Counter `i` may advance: it is not inhibited, not filtered in the current mode and not hard-wired to zero
(70_reset_and_hazards.md R238). -/
def State.counterRuns (s : State) (i : CounterIx) : Bool :=
  !s.mcountinhibit.getLsbD i.val && !s.filtered i && s.cfg.counterWmask.get i != 0

/-! ## The LCOFI bit, bit 13 of the interrupt registers -/

/-- The condition of 45_lcofi.md R185 on `mvip` and `mvien`, or the implementation has the bit anyway (U11). -/
def hasMvLcofi (c : Config) : Bool :=
  c.hasSmaia && ((c.hasSmcdeleg && c.hasSscofpmf) || c.mvLcofiExtra)

/-- The condition of 45_lcofi.md R186 on `hvip`, or the implementation has the bit anyway (U11). -/
def hasHvipLcofi (c : Config) : Bool :=
  c.hasH && ((c.hasSmcdeleg && c.hasSscofpmf && c.hasSmaia && c.hasSsaia) || c.hvLcofiExtra)

/-- The same for `hvien`, which exists only with Ssaia (10_state.md R44). -/
def hasHvienLcofi (c : Config) : Bool :=
  c.hasSsaia && hasHvipLcofi c

/-- `mideleg[13]`, read-only zero unless `MIDELEG13_WRITABLE` (10_state.md R46). -/
def State.midelegLcofi (s : State) : Bool :=
  s.cfg.hasSMode && s.cfg.mideleg13Writable && s.mideleg.getLsbD 13

/-- `hideleg[13]`, read-only zero unless `HIDELEG13_WRITABLE` (10_state.md R46). -/
def State.hidelegLcofi (s : State) : Bool :=
  s.cfg.hasH && s.cfg.hideleg13Writable && s.hideleg.getLsbD 13

/-- `mvien[13]` (10_state.md R43). -/
def State.mvienLcofi (s : State) : Bool := hasMvLcofi s.cfg && s.mvien.getLsbD 13

/-- `mvip[13]` (10_state.md R43). -/
def State.mvipLcofi (s : State) : Bool := hasMvLcofi s.cfg && s.mvip.getLsbD 13

/-- `hvien[13]` (10_state.md R44). -/
def State.hvienLcofi (s : State) : Bool := hasHvienLcofi s.cfg && s.hvien.getLsbD 13

/-- `hvip[13]` (10_state.md R44). -/
def State.hvipLcofi (s : State) : Bool := hasHvipLcofi s.cfg && s.hvip.getLsbD 13

/-- The LCOFI bits stand in the relation of 45_lcofi.md R189, R190, the default instance of `AiaEnv`. Otherwise each is
one storage bit, of which nothing more is assumed (R193; log entries 11 and 24). -/
def hasDefaultViews (c : Config) : Bool :=
  match c.aiaEnv with
  | .prompt => true
  | .delayed _ => true
  | .unconstrained _ => false

/-- `sip[13]`: `mip[13]` when LCOFIs are delegated to S-mode, else `mvip[13]` when `mvien[13]` is set, else read-only
zero (45_lcofi.md R189); its storage bit where no relation is assumed. -/
def State.sipLcofi (s : State) : Bool :=
  if !hasDefaultViews s.cfg then s.sip.getLsbD 13
  else if s.midelegLcofi then s.mip.getLsbD 13 else if s.mvienLcofi then s.mvipLcofi else false

/-- `sie[13]`: `mie[13]` when LCOFIs are delegated to S-mode, else a bit of its own when `mvien[13]` is set, else
read-only zero (45_lcofi.md R189); its storage bit where no relation is assumed. -/
def State.sieLcofi (s : State) : Bool :=
  if !hasDefaultViews s.cfg then s.sie.getLsbD 13
  else if s.midelegLcofi then s.mie.getLsbD 13 else if s.mvienLcofi then s.sie.getLsbD 13 else false

/-- `vsip[13]`: `sip[13]` when `hideleg[13]` is set, else `hvip[13]` when `hvien[13]` is set, else read-only zero
(45_lcofi.md R190); its storage bit where no relation is assumed. R187 gives the bit under the condition of R186; that it
exists where that condition does not hold is the model's choice (log entries 11 and 24). -/
def State.vsipLcofi (s : State) : Bool :=
  if !hasDefaultViews s.cfg then s.vsip.getLsbD 13
  else if s.hidelegLcofi then s.sipLcofi else if s.hvienLcofi then s.hvipLcofi else false

/-- `vsie[13]`: `sie[13]` when `hideleg[13]` is set (log entry 11), else a bit of its own when `hvien[13]` is set, else
read-only zero (45_lcofi.md R190); its storage bit where no relation is assumed. That it exists where the condition of
R186 does not hold is the model's choice, as for `vsip[13]` (log entries 11 and 24). -/
def State.vsieLcofi (s : State) : Bool :=
  if !hasDefaultViews s.cfg then s.vsie.getLsbD 13
  else if s.hidelegLcofi then s.sieLcofi else if s.hvienLcofi then s.vsie.getLsbD 13 else false

/-- A write of `sip[13]`, through the view of `State.sipLcofi` (45_lcofi.md R189, R191). That a written 1 sets the bit
shown is the model's choice, the spec gives the clearing only (log entry 19). -/
def State.setSipLcofi (s : State) (b : Bool) : State :=
  let views := hasDefaultViews s.cfg
  { s with
    mip := if views && s.midelegLcofi then withBit s.mip 13 b else s.mip
    mvip := if views && !s.midelegLcofi && s.mvienLcofi then withBit s.mvip 13 b else s.mvip
    sip := if views then s.sip else withBit s.sip 13 b }

/-- A write of `sie[13]`, through the view of `State.sieLcofi` (45_lcofi.md R189). -/
def State.setSieLcofi (s : State) (b : Bool) : State :=
  let views := hasDefaultViews s.cfg
  { s with
    mie := if views && s.midelegLcofi then withBit s.mie 13 b else s.mie
    sie := if !views || (!s.midelegLcofi && s.mvienLcofi) then withBit s.sie 13 b else s.sie }

/-- A write of `vsip[13]` (45_lcofi.md R191): it reaches `hvip[13]` when `hvien[13]` = 1, and what `sip[13]` reaches
when `hideleg[13]` = 1. R191 says that the bit is writable at least so far that writing 0 clears it; that a written 1
sets the bit shown is the model's choice (log entry 19), and so is that the bit exists where the condition of R186 does
not hold (log entries 11 and 24). -/
def State.setVsipLcofi (s : State) (b : Bool) : State :=
  let views := hasDefaultViews s.cfg
  let toSip := s.setSipLcofi b
  { s with
    mip := if views && s.hidelegLcofi then toSip.mip else s.mip
    mvip := if views && s.hidelegLcofi then toSip.mvip else s.mvip
    hvip := if views && !s.hidelegLcofi && s.hvienLcofi then withBit s.hvip 13 b else s.hvip
    vsip := if views then s.vsip else withBit s.vsip 13 b }

/-- A write of `vsie[13]`, through the view of `State.vsieLcofi` (45_lcofi.md R190). That the bit exists where the
condition of R186 does not hold is the model's choice (log entries 11 and 24). -/
def State.setVsieLcofi (s : State) (b : Bool) : State :=
  let views := hasDefaultViews s.cfg
  let toSie := s.setSieLcofi b
  { s with
    mie := if views && s.hidelegLcofi then toSie.mie else s.mie
    sie := if views && s.hidelegLcofi then toSie.sie else s.sie
    vsie := if !views || (!s.hidelegLcofi && s.hvienLcofi) then withBit s.vsie 13 b else s.vsie }

/-! ## A pending LCOFI -/

/-- The modes that an LCOFI can enter now, whatever `AiaEnv` is: a mode the hart has, and none less privileged than the
current one (log entry 12). -/
def State.admitsTrapTo (s : State) : TrapTarget → Bool
  | .m => true
  | .hs => s.cfg.hasSMode && s.priv != .m
  | .vs => s.cfg.hasH && s.virt && s.priv != .m

/-- M-mode takes an LCOFI now: it is pending and enabled, not delegated, and M-mode interrupts are enabled
(60_exceptions.md R207, R208; log entry 12); or the unconstrained `AiaEnv` says so (log entry 24). -/
def State.lcofiForM (s : State) : Bool :=
  match s.cfg.aiaEnv with
  | .unconstrained id => Config.freeAia id s.draws .takeM
  | _ => s.mip.getLsbD 13 && s.mie.getLsbD 13 && !s.midelegLcofi && (s.priv != .m || s.mstatus.mie)

/-- HS-mode takes an LCOFI now: it is pending and enabled at supervisor level, not delegated further, and the current
mode lets it in (45_lcofi.md R188, R190; 60_exceptions.md R208; log entry 12); or the unconstrained `AiaEnv` says so. -/
def State.lcofiForHs (s : State) : Bool :=
  s.admitsTrapTo .hs &&
    match s.cfg.aiaEnv with
    | .unconstrained id => Config.freeAia id s.draws .takeHs
    | _ => s.sipLcofi && s.sieLcofi && !s.hidelegLcofi && (s.virt || s.priv == .u || s.sstatus.sie)

/-- VS-mode takes an LCOFI, or a virtual one, now (45_lcofi.md R190, R191; log entry 12); or the unconstrained `AiaEnv`
says so. -/
def State.lcofiForVs (s : State) : Bool :=
  s.admitsTrapTo .vs &&
    match s.cfg.aiaEnv with
    | .unconstrained id => Config.freeAia id s.draws .takeVs
    | _ => s.vsipLcofi && s.vsieLcofi && (s.priv == .u || s.vsstatus.sie)

/-- The mode a pending and enabled LCOFI goes to, the more privileged first (log entry 12). -/
def State.pendingLcofi (s : State) : Option TrapTarget :=
  if s.lcofiForM then some .m else if s.lcofiForHs then some .hs else if s.lcofiForVs then some .vs else none

/-- A pending and enabled LCOFI is taken before the next instruction starts (60_exceptions.md R206), or, for a delayed
`AiaEnv`, perhaps (45_lcofi.md R193). The unconstrained one has already said which mode takes one. -/
def State.takesLcofiNow (s : State) : Bool :=
  match s.cfg.aiaEnv with
  | .prompt => true
  | .delayed id => Config.freeTaken id s.draws
  | .unconstrained _ => true

/-- The LCOFI this step takes, if any. -/
def State.lcofiTaken (s : State) : Option TrapTarget :=
  if s.pendingLcofi.isSome && s.takesLcofiNow then s.pendingLcofi else none

end Sys2Proof.Machine
end

