-- ==== Sys2Proof/Machine/Operands.lean ====
section
/-! DEFINITION. The operand forms of the six CSR instructions (30_encoding.md R88; 40_csr_instructions.md R100 to
R105, R114): where the source value comes from, what is written from the value read, and when the write happens. -/

namespace Sys2Proof.Machine

/-- The source of a register form, `x[rs1]` at `XLEN` bits (30_encoding.md R88). -/
def srcReg (rs1 : Reg) (s : State) : Word := s.reg rs1

/-- The source of an immediate form, `zext_XLEN(uimm)` (30_encoding.md R88). -/
def srcImm (uimm : Uimm) : Word := uimm.setWidth 64

/-- `new = src` (40_csr_instructions.md R114). -/
def combineWrite (src _old : Word) : Word := src

/-- `new = old | src` (40_csr_instructions.md R114). -/
def combineSet (src old : Word) : Word := old ||| src

/-- `new = old & ~src` (40_csr_instructions.md R114). -/
def combineClear (src old : Word) : Word := old &&& ~~~src

/-- Whether the instruction attempts a write: CSRRW and CSRRWI always; the set and clear forms unless the register
number, or the immediate, is zero (40_csr_instructions.md R100 to R105). -/
def wantsWrite : Instr → Bool
  | .csrrw _ _ _ => true
  | .csrrs _ _ rs1 => rs1 != 0
  | .csrrc _ _ rs1 => rs1 != 0
  | .csrrwi _ _ _ => true
  | .csrrsi _ _ uimm => uimm != 0
  | .csrrci _ _ uimm => uimm != 0

/-- The value the instruction writes, from the value it read (40_csr_instructions.md R100 to R105). -/
def writtenValue (i : Instr) (s : State) (old : Word) : Word :=
  match i with
  | .csrrw _ _ rs1 => combineWrite (srcReg rs1 s) old
  | .csrrs _ _ rs1 => combineSet (srcReg rs1 s) old
  | .csrrc _ _ rs1 => combineClear (srcReg rs1 s) old
  | .csrrwi _ _ uimm => combineWrite (srcImm uimm) old
  | .csrrsi _ _ uimm => combineSet (srcImm uimm) old
  | .csrrci _ _ uimm => combineClear (srcImm uimm) old

end Sys2Proof.Machine
end

