-- ==== Sys2Proof/Machine/Registers.lean ====
section
/-! DEFINITION. The targets of a permitted CSR access and what reading and writing each does: `target.read()` and
`target.write(v)` of 40_csr_instructions.md R107, with the WARL legalisation and masking inside the write (R113). -/

namespace Sys2Proof.Machine

/-- The state a permitted access reaches (40_csr_instructions.md R111). -/
inductive Target
  | siselect
  | vsiselect
  /-- `CTR[i]`: a machine counter, a user-level view of it, or a cell of the window (10_state.md R33). -/
  | counter (i : CounterIx) (h : Half)
  /-- `CFG[i]`; `hidesMinh` when it is reached through the window (42_indirect_counter_access.md R138, R149). -/
  | config (i : CounterIx) (h : Half) (hidesMinh : Bool)
  | scountinhibit
  | scountovf
  | mcountinhibit
  | mcounteren
  | scounteren
  | hcounteren
  | menvcfg (h : Half)
  | mstateen0 (h : Half)
  | hstateen0 (h : Half)
  | mie
  | mip
  | sie
  | sip
  | mvien
  | mvip
  | hvien
  | hvip
  | vsie
  | vsip
  | mideleg
  | hideleg
  deriving DecidableEq, Repr

/-! ## Legalisers -/

/-- The number under which a free legaliser knows the register it legalises. -/
def Target.tag : Target → Nat
  | .siselect => 0
  | .vsiselect => 1
  | .menvcfg _ => 2
  | .mstateen0 _ => 3
  | .hstateen0 _ => 4
  | .mie => 5
  | .mip => 6
  | .sie => 7
  | .sip => 8
  | .mvien => 9
  | .mvip => 10
  | .hvien => 11
  | .hvip => 12
  | .vsie => 13
  | .vsip => 14
  | .mideleg => 15
  | .hideleg => 16
  | .config i _ _ => 32 + i.val
  | _ => 17

/-- The bits of `CFG[i]` that exist: 62:58 of a counter configuration register (10_state.md R31); none of the event
selector of a counter hard-wired to zero (R29); bits 31:0 of an event selector without Sscofpmf when `XLEN` = 32 (R30). -/
def ccfgBits (c : Config) (i : CounterIx) : Word :=
  if i = 0 ∨ i = 2 then Config.counterCfgBits
  else if i = 1 then 0
  else if c.counterWmask.get i = 0 then 0
  else if c.xlen = .rv32 ∧ c.hasSscofpmf = false then 0xFFFFFFFF
  else 0xFFFFFFFFFFFFFFFF

/-- `CFG_LEGAL[i]` (00_scope.md R7). A free legaliser is held to the bits that exist, and to leaving MINH as it is when
the written MINH is the one held (42_indirect_counter_access.md R150; log entry 3). Whether it may change the half that
is not written on a 32-bit hart is open: R139 keeps that half, R149 runs `CFG_LEGAL` over all 64 bits, and the model
follows R149, so a free legaliser may change it (DESIGN CHOICE, log entry 3). -/
def cfgLegal (c : Config) (i : CounterIx) (old new : Word) : Word :=
  match c.cfgLegal.get i with
  | .mask m => legalise (.mask m) (32 + i.val) old new
  | .free id =>
    let r := legalise (.free id) (32 + i.val) old new
    let minh := minhMask c i
    (if (old ^^^ new) &&& minh = 0 then (r &&& ~~~minh) ||| (old &&& minh) else r) &&& ccfgBits c i

/-- `ctr_legal(i, w)` (42_indirect_counter_access.md R149). -/
def ctrLegal (c : Config) (i : CounterIx) (old new : Word) : Word :=
  let m := c.counterWmask.get i
  (new &&& m) ||| (old &&& ~~~m)

/-- Whether a select register is bound to hold the value `v` exactly: a value of the window on a hart with Smcdeleg
(00_scope.md R7; 92_eei_decisions.md D8), and, where `minimum` asks for it, every value of 0..0xFFF (10_state.md R34;
log entry 20). -/
def selectHeld (c : Config) (minimum : Bool) (v : Word) : Bool :=
  (c.hasSmcdeleg && inWindow v) || (minimum && v.toNat ≤ 0xFFF)

/-- `SISELECT_LEGAL`, `VSISELECT_LEGAL` over `XLEN` bits: a value the register is bound to hold is held exactly, and of
any other the legaliser decides (00_scope.md R7; 10_state.md R34, R36; 92_eei_decisions.md D8). -/
def selectLegal (c : Config) (l : Legaliser) (minimum : Bool) (tag : Nat) (old new : Word) : Word :=
  let v := trunc c.xlen new
  if selectHeld c minimum v then v else trunc c.xlen (legalise l tag old v)

/-- A 32-bit register after a write: the writable bits take bits 31:0 of the written value, the others keep theirs
(30_encoding.md R89; 40_csr_instructions.md R113). -/
def writeBits32 (wmask old : Bits32) (v : Word) : Bits32 :=
  (v.setWidth 32 &&& wmask) ||| (old &&& ~~~wmask)

/-- The bits of a register that this spec does not define, after a write: a write that changes none of them, whatever it
does to the defined bit, leaves them all (41_cde_and_delegation.md R120); another goes through `Config.otherLegal`
(40_csr_instructions.md R113; log entry 4). -/
def otherBits (c : Config) (tag bit : Nat) (old new : Word) : Word :=
  if withBit new bit (old.getLsbD bit) = old then old else legalise c.otherLegal tag old new

/-- One half of a 64-bit register of which this spec defines one bit: that bit takes the written value where it is
implemented and else reads zero, the bits the spec does not define are `otherBits`, and the half that is
not written keeps its bits (40_csr_instructions.md R113; log entry 4). -/
def writeFieldHalf (c : Config) (tag : Nat) (h : Half) (bit : Nat) (impl : Bool) (old v : Word) : Word :=
  let w := writeHalf c.xlen h old v
  let legal := writeHalf c.xlen h old (readHalf c.xlen h (otherBits c tag bit old w))
  withBit legal bit (impl && w.getLsbD bit)

/-- An `XLEN`-bit interrupt register of which this spec defines bit 13 only: that bit takes the written value where it
is implemented and else reads zero, the others are `otherBits` (10_state.md R42; log entry 4). -/
def writeLcofiReg (c : Config) (tag : Nat) (impl : Bool) (old v : Word) : Word :=
  withBit (trunc c.xlen (otherBits c tag 13 (trunc c.xlen old) (trunc c.xlen v))) 13 (impl && v.getLsbD 13)

/-! ## Views -/

/-- `scountovf` (10_state.md R39, 44_virtualization.md R177): bit `i`, 3 to 31, shows OF of counter `i`: all of them in
M-mode, those enabled by `mcounteren` in S-mode, by `hcounteren` too in VS-mode. -/
def State.overflowView (s : State) : Bits32 :=
  let all := bitsOf (fun n => if h : n < 32 then s.overflowFlag ⟨n, h⟩ else false) 32
  match s.mode with
  | .m => all
  | .s => all &&& s.mcounteren
  | .u => all &&& s.mcounteren
  | .vs => all &&& s.mcounteren &&& s.hcounteren
  | .vu => all &&& s.mcounteren &&& s.hcounteren

/-- `hstateen0` as read: a bit reads zero while the same bit of `mstateen0` is zero (10_state.md R40). -/
def State.hstateenView (s : State) : Word := s.hstateen0 &&& s.mstateen0

/-! ## Reading and writing a target -/

/-- `target.read()` (40_csr_instructions.md R107 step 4): an `XLEN`-bit value; reading has no side effect
(20_memory.md R73). -/
def Target.read (t : Target) (s : State) : Word :=
  match t with
  | .siselect => trunc s.cfg.xlen s.siselect
  | .vsiselect => trunc s.cfg.xlen s.vsiselect
  | .counter i h => readHalf s.cfg.xlen h (s.counter i)
  | .config i h hides =>
    readHalf s.cfg.xlen h (if hides then s.counterCfg i &&& ~~~minhMask s.cfg i else s.counterCfg i)
  | .scountinhibit => (s.mcountinhibit &&& s.mcounteren).setWidth 64
  | .scountovf => s.overflowView.setWidth 64
  | .mcountinhibit => s.mcountinhibit.setWidth 64
  | .mcounteren => s.mcounteren.setWidth 64
  | .scounteren => s.scounteren.setWidth 64
  | .hcounteren => s.hcounteren.setWidth 64
  | .menvcfg h => readHalf s.cfg.xlen h (withBit s.menvcfg 60 s.cde)
  | .mstateen0 h => readHalf s.cfg.xlen h s.mstateen0
  | .hstateen0 h => readHalf s.cfg.xlen h s.hstateenView
  | .mie => trunc s.cfg.xlen s.mie
  | .mip => trunc s.cfg.xlen s.mip
  | .sie => trunc s.cfg.xlen (withBit s.sie 13 s.sieLcofi)
  | .sip => trunc s.cfg.xlen (withBit s.sip 13 s.sipLcofi)
  | .mvien => trunc s.cfg.xlen (withBit s.mvien 13 s.mvienLcofi)
  | .mvip => trunc s.cfg.xlen (withBit s.mvip 13 s.mvipLcofi)
  | .hvien => trunc s.cfg.xlen (withBit s.hvien 13 s.hvienLcofi)
  | .hvip => trunc s.cfg.xlen (withBit s.hvip 13 s.hvipLcofi)
  | .vsie => trunc s.cfg.xlen (withBit s.vsie 13 s.vsieLcofi)
  | .vsip => trunc s.cfg.xlen (withBit s.vsip 13 s.vsipLcofi)
  | .mideleg => trunc s.cfg.xlen (withBit s.mideleg 13 s.midelegLcofi)
  | .hideleg => trunc s.cfg.xlen (withBit s.hideleg 13 s.hidelegLcofi)

/-- `CSR[mcountinhibit]` after a write through `scountinhibit` (43_scountinhibit.md R161): the bits of delegated
counters take the written value where it is writable, all others keep theirs. -/
def State.scountinhibitWrite (s : State) (v : Word) : Bits32 :=
  let d := s.mcounteren
  let w := s.cfg.mcountinhibitWmask
  (s.mcountinhibit &&& ~~~d) ||| (v.setWidth 32 &&& d &&& w) ||| (s.mcountinhibit &&& d &&& ~~~w)

/-- `CFG[i]` after a write of one half (42_indirect_counter_access.md R149): through the window MINH keeps its value,
whatever is written. -/
def State.configWrite (s : State) (i : CounterIx) (h : Half) (hides : Bool) (v : Word) : Word :=
  let old := s.counterCfg i
  let w := writeHalf s.cfg.xlen h old v
  let minh := minhMask s.cfg i
  cfgLegal s.cfg i old (if hides then (w &&& ~~~minh) ||| (old &&& minh) else w)

/-- `hstateen0` after a write of one half: a bit keeps its value while the same bit of `mstateen0` is zero (10_state.md
R40). -/
def State.hstateenWrite (s : State) (tag : Nat) (h : Half) (v : Word) : Word :=
  let m := readHalf s.cfg.xlen h s.mstateen0
  let w := (v &&& m) ||| (readHalf s.cfg.xlen h s.hstateen0 &&& ~~~m)
  (writeFieldHalf s.cfg tag h 60 true s.hstateen0 w &&& s.mstateen0) ||| (s.hstateen0 &&& ~~~s.mstateen0)

/-- `target.write(v)` (40_csr_instructions.md R107 step 5, R113). `scountovf` is read-only: no write reaches it
(R108 step 3). -/
def Target.write (t : Target) (v : Word) (s : State) : State :=
  match t with
  | .siselect => { s with siselect := selectLegal s.cfg s.cfg.siselectLegal s.cfg.siselectMinimum t.tag s.siselect v }
  | .vsiselect => { s with vsiselect := selectLegal s.cfg s.cfg.vsiselectLegal false t.tag s.vsiselect v }
  | .counter i h => s.setCounter i (ctrLegal s.cfg i (s.counter i) (writeHalf s.cfg.xlen h (s.counter i) v))
  | .config i h hides => s.setCounterCfg i (s.configWrite i h hides v)
  | .scountinhibit => { s with mcountinhibit := s.scountinhibitWrite v }
  | .scountovf => s
  | .mcountinhibit => { s with mcountinhibit := writeBits32 s.cfg.mcountinhibitWmask s.mcountinhibit v }
  | .mcounteren => { s with mcounteren := writeBits32 s.cfg.mcounterenWmask s.mcounteren v }
  | .scounteren => { s with scounteren := writeBits32 s.cfg.scounterenWmask s.scounteren v }
  | .hcounteren => { s with hcounteren := writeBits32 s.cfg.hcounterenWmask s.hcounteren v }
  | .menvcfg h => { s with menvcfg := writeFieldHalf s.cfg t.tag h 60 s.cfg.hasSmcdeleg s.menvcfg v }
  | .mstateen0 h => { s with mstateen0 := writeFieldHalf s.cfg t.tag h 60 true s.mstateen0 v }
  | .hstateen0 h => { s with hstateen0 := s.hstateenWrite t.tag h v }
  | .mie => { s with mie := writeLcofiReg s.cfg t.tag true s.mie v }
  | .mip => { s with mip := writeLcofiReg s.cfg t.tag true s.mip v }
  | .sie =>
    let own := s.sie.getLsbD 13
    { s with sie := withBit (writeLcofiReg s.cfg t.tag true s.sie v) 13 own }.setSieLcofi (v.getLsbD 13)
  | .sip => { s with sip := writeLcofiReg s.cfg t.tag false s.sip v }.setSipLcofi (v.getLsbD 13)
  | .mvien => { s with mvien := writeLcofiReg s.cfg t.tag (hasMvLcofi s.cfg) s.mvien v }
  | .mvip => { s with mvip := writeLcofiReg s.cfg t.tag (hasMvLcofi s.cfg) s.mvip v }
  | .hvien => { s with hvien := writeLcofiReg s.cfg t.tag (hasHvienLcofi s.cfg) s.hvien v }
  | .hvip => { s with hvip := writeLcofiReg s.cfg t.tag (hasHvipLcofi s.cfg) s.hvip v }
  | .vsie =>
    let own := s.vsie.getLsbD 13
    { s with vsie := withBit (writeLcofiReg s.cfg t.tag true s.vsie v) 13 own }.setVsieLcofi (v.getLsbD 13)
  | .vsip => { s with vsip := writeLcofiReg s.cfg t.tag false s.vsip v }.setVsipLcofi (v.getLsbD 13)
  | .mideleg => { s with mideleg := writeLcofiReg s.cfg t.tag s.cfg.mideleg13Writable s.mideleg v }
  | .hideleg => { s with hideleg := writeLcofiReg s.cfg t.tag s.cfg.hideleg13Writable s.hideleg v }

end Sys2Proof.Machine
end

