-- ==== Sys2Proof/Machine/Access.lean ====
section
/-! DEFINITION. The access procedure (40_csr_instructions.md R106 to R112): whether an access to a CSR number from the
current mode reaches a register, raises an exception, or is out of scope. -/

namespace Sys2Proof.Machine

/-- What the checks of an access answer (40_csr_instructions.md R107 steps 1 to 3). -/
inductive Access
  /-- The access is permitted and reaches a target. -/
  | reach (t : Target)
  /-- The access raises an exception. -/
  | raise (e : Exc)
  /-- The access is out of scope. -/
  | refuse (r : Refusal)
  deriving DecidableEq, Repr

/-! ## Existence and permission -/

/-- The register exists on a 32-bit hart only, when it is the high half of another (10_state.md R23, R25). -/
def halfExists (c : Config) : Half → Bool
  | .low => true
  | .high => c.xlen == .rv32

/-- `exists(addr)` (40_csr_instructions.md R112): the "exists when" column of 10_state.md R23; `scountinhibit` exists
only while CDE = 1. -/
def State.csrExists (s : State) (c : Csr) : Bool :=
  let g := s.cfg
  match c with
  | .scountinhibit => g.hasSmcdeleg && s.cde
  | .siselect => g.hasSscsrind
  | .sireg _ => g.hasSscsrind
  | .vsiselect => g.hasSscsrind && g.hasH
  | .vsireg _ => g.hasSscsrind && g.hasH
  | .scountovf => g.hasSscofpmf
  | .scounteren => g.hasSMode
  | .sie => g.hasSMode
  | .sip => g.hasSMode
  | .vsie => g.hasH
  | .vsip => g.hasH
  | .mcounteren => true
  | .menvcfg h => halfExists g h
  | .mstateen0 h => g.hasSmstateen && halfExists g h
  | .hstateen0 h => g.hasSmstateen && g.hasH && halfExists g h
  | .mideleg => g.hasSMode
  | .hideleg => g.hasH
  | .hcounteren => g.hasH
  | .mvien => g.hasSmaia
  | .mvip => g.hasSmaia
  | .hvien => g.hasSsaia && g.hasH
  | .hvip => g.hasH
  | .mie => true
  | .mip => true
  | .mcountinhibit => true
  | .config i h =>
    if i = 0 ∨ i = 2 then g.hasSmcntrpmf && halfExists g h
    else match h with
      | .low => true
      | .high => g.hasSscofpmf && g.xlen == .rv32
  | .counter _ h => halfExists g h
  | .userCounter i h => (if i.val ≤ 2 then g.hasZicntr else g.hasZihpm) && halfExists g h
  | .absent => false

/-- The registers that `mstateen0[60]` gates: `siselect`, `sireg*`, `vsiselect`, `vsireg*` (40_csr_instructions.md
R109). -/
def gatedByMstateen : Csr → Bool
  | .siselect | .sireg _ | .vsiselect | .vsireg _ => true
  | _ => false

/-- The registers that `hstateen0[60]` gates: `siselect`, `sireg*` (40_csr_instructions.md R109). -/
def gatedByHstateen : Csr → Bool
  | .siselect | .sireg _ => true
  | _ => false

/-- `stateen_m(addr, mode)` raises (40_csr_instructions.md R109). -/
def State.mstateenBlocks (s : State) (c : Csr) : Bool :=
  s.cfg.hasSmstateen && s.mode != .m && !s.mstateen0.getLsbD 60 && gatedByMstateen c

/-- `stateen_h(addr, mode)` raises (40_csr_instructions.md R109). -/
def State.hstateenBlocks (s : State) (c : Csr) : Bool :=
  s.cfg.hasSmstateen && s.cfg.hasH && s.virt && !s.hstateenView.getLsbD 60 && gatedByHstateen c

/-- The exception that a read of a user-level counter view raises in the current mode, if any (60_exceptions.md R220). -/
def State.userCounterDenied (s : State) (i : CounterIx) : Option Exc :=
  let m := s.mcounteren.getLsbD i.val
  let h := s.hcounteren.getLsbD i.val
  let sc := s.scounteren.getLsbD i.val
  match s.mode with
  | .m => none
  | .s => if m then none else some .illegal
  | .u => if m && (sc || !s.cfg.hasSMode) then none else some .illegal
  | .vs => if !m then some .illegal else if !h then some .virtual else none
  | .vu => if !m then some .illegal else if !h || !sc then some .virtual else none

/-- `permission(addr, mode, want_write)` (40_csr_instructions.md R108): the first check that applies decides; `none`
when no check raises. -/
def State.permission (s : State) (n : CsrNum) (c : Csr) (wantWrite : Bool) : Option Exc :=
  if !s.csrExists c then some .illegal
  else if level n = .machine ∧ s.mode ≠ .m then some .illegal
  else if s.mode = .u ∧ (level n = .supervisor ∨ level n = .hypervisor) then some .illegal
  else if wantWrite && readOnlyNumber n then some .illegal
  else if s.mstateenBlocks c then some .illegal
  else if s.virt ∧ level n = .hypervisor then some .virtual
  else if s.mode = .vu ∧ level n = .supervisor then some .virtual
  else if s.hstateenBlocks c then some .virtual
  else match c with
    | .userCounter i _ => s.userCounterDenied i
    | _ => none

/-! ## The window (42_indirect_counter_access.md) -/

/-- `needs(i, k)` (42_indirect_counter_access.md R137): the extensions the cell of Table 1 depends on; `sireg3` and
`sireg6` have no cell. -/
def windowNeeds (c : Config) (i : CounterIx) (k : IndirectReg) : Bool :=
  let fixed := i = 0 ∨ i = 2
  match k with
  | .reg1 | .reg4 => if fixed then c.hasZicntr else c.hasZihpm
  | .reg2 => if fixed then c.hasZicntr && c.hasSmcntrpmf else c.hasZihpm
  | .reg5 => if fixed then c.hasZicntr && c.hasSmcntrpmf else c.hasZihpm && c.hasSscofpmf
  | .reg3 | .reg6 => false

/-- `target(i, k)`, the cell of Table 1 (42_indirect_counter_access.md R136, R138). -/
def windowCell (i : CounterIx) : IndirectReg → Option Target
  | .reg1 => some (.counter i .low)
  | .reg2 => some (.config i .low true)
  | .reg3 => none
  | .reg4 => some (.counter i .high)
  | .reg5 => some (.config i .high true)
  | .reg6 => none

/-- `window(k)` (42_indirect_counter_access.md R147): an access to `sireg[k]` from M or S mode while `siselect` holds a
value of the window. -/
def State.window (s : State) (k : IndirectReg) : Access :=
  let i := windowIx s.siselect
  if !s.cde then .raise .illegal
  else if (k = .reg4 ∨ k = .reg5) ∧ s.cfg.xlen = .rv64 then .raise .illegal
  else if i = 1 then .raise .illegal
  else if !s.mcounteren.getLsbD i.val then .raise .illegal
  else if !windowNeeds s.cfg i k then .raise .illegal
  else match windowCell i k with
    | some t => .reach t
    | none => .raise .illegal

/-! ## Resolution -/

/-- A select value that this spec gives a meaning to: one of 0x40..0x5F, the range reserved for this extension
(42_indirect_counter_access.md R135, R156). Without Smcdeleg the spec both refuses the range (93_implementation_defined.md
U2) and says what CDE = 0 makes of it (41_cde_and_delegation.md R123): the parameter decides (log entry 17). -/
def State.selectsWindow (s : State) (select : Word) : Bool :=
  inWindow (trunc s.cfg.xlen select) && (s.cfg.hasSmcdeleg || s.cfg.absentWindow == .followsCde)

/-- `sireg[k]` (40_csr_instructions.md R111): from VS-mode the access is really to `vsireg[k]`, selected by
`vsiselect` (44_virtualization.md R171, R174). -/
def State.resolveSireg (s : State) (k : IndirectReg) : Access :=
  if s.mode = .vs then
    if s.selectsWindow s.vsiselect then (if s.cde then .raise .virtual else .raise .illegal)
    else .refuse .otherIndirect
  else if s.selectsWindow s.siselect then s.window k
  else .refuse .otherIndirect

/-- `vsireg[k]` from M or HS mode (44_virtualization.md R173). -/
def State.resolveVsireg (s : State) : Access :=
  if s.selectsWindow s.vsiselect then .raise .illegal else .refuse .otherIndirect

/-- `resolve(addr, mode)` (40_csr_instructions.md R110, R111): which state a permitted access reaches now. In VS-mode
the numbers of `siselect`, `sie` and `sip` reach `vsiselect`, `vsie` and `vsip` (44_virtualization.md R171,
45_lcofi.md R187). -/
def State.resolve (s : State) (c : Csr) : Access :=
  match c with
  | .scountinhibit => if s.virt then .raise .virtual else .reach .scountinhibit
  | .siselect => .reach (if s.mode = .vs then .vsiselect else .siselect)
  | .sireg k => s.resolveSireg k
  | .vsiselect => .reach .vsiselect
  | .vsireg _ => s.resolveVsireg
  | .scountovf => if s.mode = .vs ∧ s.cfg.hasSmcdeleg ∧ s.cde then .raise .virtual else .reach .scountovf
  | .scounteren => .reach .scounteren
  | .sie => .reach (if s.mode = .vs then .vsie else .sie)
  | .sip => .reach (if s.mode = .vs then .vsip else .sip)
  | .vsie => .reach .vsie
  | .vsip => .reach .vsip
  | .mcounteren => .reach .mcounteren
  | .menvcfg h => .reach (.menvcfg h)
  | .mstateen0 h => .reach (.mstateen0 h)
  | .hstateen0 h => .reach (.hstateen0 h)
  | .mideleg => .reach .mideleg
  | .hideleg => .reach .hideleg
  | .hcounteren => .reach .hcounteren
  | .mvien => .reach .mvien
  | .mvip => .reach .mvip
  | .hvien => .reach .hvien
  | .hvip => .reach .hvip
  | .mie => .reach .mie
  | .mip => .reach .mip
  | .mcountinhibit => .reach .mcountinhibit
  | .config i h => .reach (.config i h false)
  | .counter i h => .reach (.counter i h)
  | .userCounter i h => .reach (.counter i h)
  | .absent => .raise .illegal

/-- Steps 1 to 3 of `csr_access` (40_csr_instructions.md R107). Whether the value is wanted changes no step, so
`want_read` is no argument. -/
def State.access (s : State) (n : CsrNum) (wantWrite : Bool) : Access :=
  match Csr.ofNumber n with
  | none => .refuse .csrNumberOutOfScope
  | some c =>
    match s.permission n c wantWrite with
    | some e => .raise e
    | none => s.resolve c

/-! ## Completing an instruction -/

/-- The end of an instruction that raises nothing: `pc <- pc + 4` (10_state.md R21); where `pc + 4` wraps past the top
of the address space the spec leaves the step out of scope. -/
def advance (s : State) : Host.Outcome State Fault Refusal :=
  if 2 ^ xlenBits s.cfg.xlen ≤ s.pc.toNat + 4 then .refused .pcWraps else .next { s with pc := s.pc + 4 }

/-- A CSR instruction (40_csr_instructions.md R100 to R105, R107): the checks; then the old value is read, the new one
written where a write is wanted, and the old value goes to `rd`. `word` is the instruction's own encoding, for the trap
value. -/
def csrInstr (word : BitVec 32) (rd : Reg) (n : CsrNum) (wantWrite : Bool) (wval : Word → Word) (s : State) :
    Host.Outcome State Fault Refusal :=
  match s.access n wantWrite with
  | .refuse r => .refused r
  | .raise e => .next (takeException e word s)
  | .reach t =>
    let old := t.read s
    let written := if wantWrite then t.write (trunc s.cfg.xlen (wval old)) s else s
    advance (written.setReg rd old)

end Sys2Proof.Machine
end

