-- ==== Sys2Proof/Machine/CsrInstructions.lean ====
section
/-! DEFINITION. The meanings of the six CSR instructions (40_csr_instructions.md R100 to R105), each over the shared
operation `csrInstr`. -/

namespace Sys2Proof.Machine

/-- CSRRW (R100): the old value of the CSR to `rd`, `x[rs1]` to the CSR; always a write attempt. -/
def execCsrrw (rd : Reg) (csr : CsrNum) (rs1 : Reg) (s : State) : Host.Outcome State Fault Refusal :=
  csrInstr (encode (.csrrw rd csr rs1)) rd csr true (combineWrite (srcReg rs1 s)) s

/-- CSRRS (R101): sets in the CSR the bits of `x[rs1]`; no write attempt when `rs1` is `x0`. -/
def execCsrrs (rd : Reg) (csr : CsrNum) (rs1 : Reg) (s : State) : Host.Outcome State Fault Refusal :=
  csrInstr (encode (.csrrs rd csr rs1)) rd csr (rs1 != 0) (combineSet (srcReg rs1 s)) s

/-- CSRRC (R102): clears in the CSR the bits of `x[rs1]`; no write attempt when `rs1` is `x0`. -/
def execCsrrc (rd : Reg) (csr : CsrNum) (rs1 : Reg) (s : State) : Host.Outcome State Fault Refusal :=
  csrInstr (encode (.csrrc rd csr rs1)) rd csr (rs1 != 0) (combineClear (srcReg rs1 s)) s

/-- CSRRWI (R103): the old value of the CSR to `rd`, the immediate to the CSR; always a write attempt. -/
def execCsrrwi (rd : Reg) (csr : CsrNum) (uimm : Uimm) (s : State) : Host.Outcome State Fault Refusal :=
  csrInstr (encode (.csrrwi rd csr uimm)) rd csr true (combineWrite (srcImm uimm)) s

/-- CSRRSI (R104): sets in the CSR the bits of the immediate; no write attempt when it is 0. -/
def execCsrrsi (rd : Reg) (csr : CsrNum) (uimm : Uimm) (s : State) : Host.Outcome State Fault Refusal :=
  csrInstr (encode (.csrrsi rd csr uimm)) rd csr (uimm != 0) (combineSet (srcImm uimm)) s

/-- CSRRCI (R105): clears in the CSR the bits of the immediate; no write attempt when it is 0. -/
def execCsrrci (rd : Reg) (csr : CsrNum) (uimm : Uimm) (s : State) : Host.Outcome State Fault Refusal :=
  csrInstr (encode (.csrrci rd csr uimm)) rd csr (uimm != 0) (combineClear (srcImm uimm)) s

end Sys2Proof.Machine
end

