-- ==== Sys2Proof/Machine/CounterEnv.lean ====
section
/-! DEFINITION. `CounterEnv` (70_reset_and_hazards.md R238): how the counters advance after an instruction, and the
overflow that sets OF and pends an LCOFI (45_lcofi.md R192). By how much a running counter advances is a free value. -/

namespace Sys2Proof.Machine

/-- What `CounterEnv` needs to know of the step it follows. -/
structure Retirement where
  /-- An instruction retired: it neither trapped nor gave way to an interrupt. -/
  retired : Bool
  /-- The instruction itself wrote `minstret`. -/
  wroteInstret : Bool
  /-- `minstret` was running before the step. -/
  instretRan : Bool
  deriving DecidableEq, Repr

/-- The target is `minstret`. -/
def isInstret : Target → Bool
  | .counter i _ => i = 2
  | _ => false

/-- The retirement of an instruction executed in a state. -/
def State.retirement (s : State) (i : Instr) : Retirement :=
  match s.access i.csrNum (wantsWrite i) with
  | .reach t => { retired := true, wroteInstret := wantsWrite i && isInstret t, instretRan := s.counterRuns 2 }
  | _ => { retired := false, wroteInstret := false, instretRan := s.counterRuns 2 }

/-- No instruction retired: the step took an interrupt. -/
def State.noRetirement (s : State) : Retirement :=
  { retired := false, wroteInstret := false, instretRan := s.counterRuns 2 }

/-- By how much `minstret` advances while it runs: 1 for an instruction that retires and does not write `minstret`
itself (70_reset_and_hazards.md R238, 42_indirect_counter_access.md R153); free when that instruction itself restarted
it (20_memory.md R77; log entry 9). -/
def instretDelta (r : Retirement) (draw : Nat) : Nat :=
  if r.retired && !r.wroteInstret && (r.instretRan || Config.freeRestartCounts draw) then 1 else 0

/-- `d` of 70_reset_and_hazards.md R238 for counter `i`. The time counter is the platform's and always free. -/
def State.counterDelta (s : State) (r : Retirement) (i : CounterIx) : Nat :=
  if i = 1 then Config.freeDelta s.draws i
  else if !s.counterRuns i then 0
  else if i = 2 then instretDelta r s.draws
  else Config.freeDelta s.draws i

/-- `CTR[i] + d` wraps past 2^64 - 1 while the counter's OF is clear (70_reset_and_hazards.md R238, 45_lcofi.md R192). -/
def State.overflows (s : State) (r : Retirement) (i : CounterIx) : Bool :=
  hasOverflowFlag s.cfg i && !s.overflowFlag i && 2 ^ 64 ≤ (s.counter i).toNat + s.counterDelta r i

/-- The environment acts between two instructions: it changes the counters, the OF bits and `mip[13]`, and nothing else
of the hart (70_reset_and_hazards.md R238). -/
def counterEnv (r : Retirement) (s : State) : State :=
  { s with
    draws := s.draws + 1
    ctr := Vector.ofFn fun i => s.counter i + BitVec.ofNat 64 (s.counterDelta r i)
    ccfg := Vector.ofFn fun i => if s.overflows r i then withBit (s.counterCfg i) 63 true else s.counterCfg i
    mip := if (List.finRange 32).any (s.overflows r) then withBit s.mip 13 true else s.mip }

end Sys2Proof.Machine
end

