-- ==== Sys2Proof/Machine/Environment.lean ====
section
/-! DEFINITION. What happens between two instructions without any of them: `AiaEnv` moves the LCOFI bits
(45_lcofi.md R193), `CounterEnv` moves the counters (70_reset_and_hazards.md R238). -/

namespace Sys2Proof.Machine

/-- What `AiaEnv` does to the LCOFI bits after a step. The default instance keeps every relation through the views and
moves nothing; the unconstrained one leaves a free value in bit 13 of each pending, enable and view register. Bit 13 of
`mvien`, `hvien`, `mideleg` and `hideleg` changes by software only (45_lcofi.md R185, R186, R188; log entry 24). -/
def aiaMoves (s : State) : State :=
  match s.cfg.aiaEnv with
  | .unconstrained id =>
    let draw := Config.freeAia id s.draws
    { s with
      mip := withBit s.mip 13 (draw .mip), mie := withBit s.mie 13 (draw .mie)
      sip := withBit s.sip 13 (draw .sip), sie := withBit s.sie 13 (draw .sie)
      mvip := withBit s.mvip 13 (draw .mvip), hvip := withBit s.hvip 13 (draw .hvip)
      vsip := withBit s.vsip 13 (draw .vsip), vsie := withBit s.vsie 13 (draw .vsie) }
  | _ => s

/-- The environment between two instructions: `AiaEnv`, then `CounterEnv`, so that an LCOFI that an overflow pends is
still pending when the next step starts (45_lcofi.md R192). -/
def environment (r : Retirement) (s : State) : State := counterEnv r (aiaMoves s)

end Sys2Proof.Machine
end

