-- ==== Sys2Proof/Machine/Fetch.lean ====
section
/-! DEFINITION. Fetching the instruction word at `pc` (20_memory.md R70 to R72) and placing one there. -/

namespace Sys2Proof.Machine

/-- What a fetch answers. -/
inductive Fetched
  | instr (i : Instr)
  | fault (f : Fault)
  | refuse (r : Refusal)
  deriving DecidableEq, Repr

/-- The instruction at `pc`: the four bytes from there, the first the least significant (20_memory.md R71); a `pc` that
is not 4-byte aligned is out of scope (R72), as is a word that is no CSR instruction (30_encoding.md R92). -/
def State.fetch (s : State) : Fetched :=
  if s.pc.toNat % 4 ≠ 0 then .refuse .fetchMisaligned
  else match Memory.readBytes s.mem s.pc.toNat 4 with
    | none => .fault .fetchNoByte
    | some bytes =>
      match decode bytes with
      | .ok (i, _) => .instr i
      | .error why => .refuse (.notCsrInstruction why)

/-- The instruction word `w` stored at `pc`. -/
def State.placeWord (s : State) (w : BitVec 32) : State :=
  { s with mem := Memory.writeBytes s.mem s.pc.toNat (bytesOfWord w) }

end Sys2Proof.Machine
end

