-- ==== Sys2Proof/Machine/Step.lean ====
section
/-! DEFINITION. One step of the hart. -/

namespace Sys2Proof.Machine

/-- The instruction at `pc` runs, and the environment then acts (70_reset_and_hazards.md R238, 45_lcofi.md R193). -/
def runInstr (s : State) : Host.Outcome State Fault Refusal :=
  match s.fetch with
  | .fault f => .fault f
  | .refuse r => .refused r
  | .instr i =>
    match exec i s with
    | .next t => .next (environment (s.retirement i) t)
    | .fault f => .fault f
    | .refused r => .refused r

/-- One step: a pending and enabled LCOFI is taken before the instruction starts (60_exceptions.md R206); otherwise the
instruction at `pc` runs. -/
def step (s : State) : Host.Outcome State Fault Refusal :=
  match s.lcofiTaken with
  | some t => .next (environment s.noRetirement (takeLcofi t s))
  | none => runInstr s

/-- The state with an instruction of the opcode table placed where the next step fetches it. -/
def State.withFetchWord (s : State) (nbits w : Nat) : State :=
  s.placeWord (BitVec.ofNat 32 (w % 2 ^ nbits))

end Sys2Proof.Machine
end

