-- ==== Sys2Proof/Safety.lean ====
section
/-! DEFINITION. The terms in which claims about the machine are stated: the constraints between the parameters, the
invariant of the state, and what it is for an instruction to complete, to raise an exception or to be out of scope. -/

namespace Sys2Proof.Machine

/-- The legaliser of a configuration register can set only bits that exist (10_state.md R29 to R31). -/
def legaliserWf (c : Config) (i : CounterIx) : Bool :=
  match c.cfgLegal.get i with
  | .mask m => m &&& ~~~ccfgBits c i == 0
  | .free _ => true

/-- The constraints between the parameters (00_scope.md R6, R7; 92_eei_decisions.md D16): Smcdeleg needs S-mode and
Sscsrind, Ssaia needs Smaia, the hypervisor extension needs S-mode, bit 1 of `MCOUNTINHIBIT_WMASK` is clear, the reset
vector is a 4-byte aligned `XLEN`-bit address, and the legalisers keep to the bits that exist. -/
def configWf (c : Config) : Bool :=
  (!c.hasSmcdeleg || (c.hasSMode && c.hasSscsrind)) && (!c.hasSsaia || c.hasSmaia) && (!c.hasH || c.hasSMode)
    && !c.mcountinhibitWmask.getLsbD 1 && c.resetVector &&& 3 == 0 && trunc c.xlen c.resetVector == c.resetVector
    && (List.finRange 32).all (legaliserWf c)

/-- `priv` and `V` name a mode the hart has (10_state.md R22). -/
abbrev State.modeWf (s : State) : Prop :=
  (s.virt = true → s.cfg.hasH = true ∧ s.priv ≠ .m) ∧ (s.priv = .s → s.cfg.hasSMode = true)

/-- `pc` is a 4-byte aligned `XLEN`-bit address (10_state.md R21, 20_memory.md R72). -/
abbrev State.pcWf (s : State) : Prop :=
  s.pc &&& 3 = 0 ∧ trunc s.cfg.xlen s.pc = s.pc

/-- Every general register holds an `XLEN`-bit value (10_state.md R20). -/
abbrev State.regsWf (s : State) : Prop :=
  ∀ r : Reg, trunc s.cfg.xlen (s.x.get r) = s.x.get r

/-- The read-only-zero bits of `mcounteren` and `mcountinhibit` are zero (10_state.md R26, R27). -/
abbrev State.enablesWf (s : State) : Prop :=
  s.mcounteren &&& ~~~s.cfg.mcounterenWmask = 0 ∧ s.mcountinhibit &&& ~~~s.cfg.mcountinhibitWmask = 0

/-- A counter hard-wired to zero is zero, and a configuration register holds only bits that exist (10_state.md R29 to
R31); slot 1 is no counter of the hart. -/
abbrev State.countersWf (s : State) : Prop :=
  ∀ i : CounterIx, i ≠ 1 →
    (s.cfg.counterWmask.get i = 0 → s.counter i = 0) ∧ s.counterCfg i &&& ~~~ccfgBits s.cfg i = 0

/-- The invariant of the state. -/
structure State.Inv (s : State) : Prop where
  config : configWf s.cfg = true
  memory : Memory.wf s.mem = true
  mode : s.modeWf
  pc : s.pcWf
  regs : s.regsWf
  enables : s.enablesWf
  counters : s.countersWf

/-- The instruction completes in the state `t`. -/
def Completes (i : Instr) (s t : State) : Prop := exec i s = .next t

/-- The state after an instruction whose access reaches the target `tgt` (40_csr_instructions.md R100 to R105): the
value read, before the write, goes to `rd`; the written value, where a write is wanted, to the target; `pc` moves on. -/
def afterAccess (i : Instr) (tgt : Target) (s : State) : State :=
  let old := tgt.read s
  let written := if wantsWrite i then tgt.write (trunc s.cfg.xlen (writtenValue i s old)) s else s
  { written.setReg i.rd old with pc := s.pc + 4 }

/-- The instruction raises an exception, with the trap value its own encoding gives (60_exceptions.md R202, R212). -/
def Raises (e : Exc) (i : Instr) (s : State) : Prop := exec i s = .next (takeException e (encode i) s)

/-- The instruction is out of scope, under a name (00_scope.md R9). -/
def OutOfScope (r : Refusal) (i : Instr) (s : State) : Prop := exec i s = .refused r

/-- `pc + 4` does not wrap past the top of the address space (10_state.md R21). -/
abbrev State.pcInRange (s : State) : Prop := s.pc.toNat + 4 < 2 ^ xlenBits s.cfg.xlen

/-- The instruction names the CSR `c` (10_state.md R23). -/
abbrev names (i : Instr) (c : Csr) : Prop := Csr.ofNumber i.csrNum = some c

/-- An access to `siselect`, `sireg*`, `vsiselect` or `vsireg*` is not blocked by a state-enable bit
(40_csr_instructions.md R109, 44_virtualization.md R170). -/
abbrev State.stateenOpen (s : State) : Prop :=
  s.cfg.hasSmstateen = true → s.mode ≠ .m →
    s.mstateen0.getLsbD 60 = true ∧ (s.virt = true → s.hstateen0.getLsbD 60 = true)

/-- The window rules apply to a select value of 0x40..0x5F: always with Smcdeleg, and without it where the parameter
`absentWindow` says so (log entry 17). -/
abbrev State.windowApplies (s : State) : Prop :=
  s.cfg.hasSmcdeleg = true ∨ s.cfg.absentWindow = .followsCde

/-- Two states agree on everything a CSR instruction does not touch: the parameters, memory, the mode and the trap
registers. -/
def sameOutside (s t : State) : Prop :=
  t.cfg = s.cfg ∧ t.draws = s.draws ∧ t.mem = s.mem ∧ t.priv = s.priv ∧ t.virt = s.virt ∧
  t.medeleg = s.medeleg ∧ t.hedeleg = s.hedeleg ∧
  t.mstatus = s.mstatus ∧ t.mtvec = s.mtvec ∧ t.mepc = s.mepc ∧ t.mcause = s.mcause ∧ t.mtval = s.mtval ∧
  t.mtval2 = s.mtval2 ∧ t.mtinst = s.mtinst ∧
  t.sstatus = s.sstatus ∧ t.hstatus = s.hstatus ∧ t.stvec = s.stvec ∧ t.sepc = s.sepc ∧ t.scause = s.scause ∧
  t.stval = s.stval ∧ t.htval = s.htval ∧ t.htinst = s.htinst ∧
  t.vsstatus = s.vsstatus ∧ t.vstvec = s.vstvec ∧ t.vsepc = s.vsepc ∧ t.vscause = s.vscause ∧ t.vstval = s.vstval

/-- Of the control, counter, select, state-enable and interrupt registers, only what a write of the target `tgt` may
reach differs between two states: the register itself, or, for a view of bit 13, the registers it shows. -/
def onlyTargetDiffers (tgt : Target) (s t : State) : Prop :=
  ((∀ h, tgt ≠ .menvcfg h) → t.menvcfg = s.menvcfg) ∧ (tgt ≠ .mcounteren → t.mcounteren = s.mcounteren) ∧
  (tgt ≠ .scounteren → t.scounteren = s.scounteren) ∧ (tgt ≠ .hcounteren → t.hcounteren = s.hcounteren) ∧
  (tgt ≠ .mcountinhibit → tgt ≠ .scountinhibit → t.mcountinhibit = s.mcountinhibit) ∧
  (∀ i, (∀ h, tgt ≠ .counter i h) → t.counter i = s.counter i) ∧
  (∀ i, (∀ h m, tgt ≠ .config i h m) → t.counterCfg i = s.counterCfg i) ∧
  (tgt ≠ .siselect → t.siselect = s.siselect) ∧ (tgt ≠ .vsiselect → t.vsiselect = s.vsiselect) ∧
  ((∀ h, tgt ≠ .mstateen0 h) → t.mstateen0 = s.mstateen0) ∧ ((∀ h, tgt ≠ .hstateen0 h) → t.hstateen0 = s.hstateen0) ∧
  (tgt ≠ .mie → tgt ≠ .sie → tgt ≠ .vsie → t.mie = s.mie) ∧ (tgt ≠ .mip → tgt ≠ .sip → tgt ≠ .vsip → t.mip = s.mip) ∧
  (tgt ≠ .sie → tgt ≠ .vsie → t.sie = s.sie) ∧ (tgt ≠ .sip → t.sip = s.sip) ∧ (tgt ≠ .mvien → t.mvien = s.mvien) ∧
  (tgt ≠ .mvip → tgt ≠ .sip → tgt ≠ .vsip → t.mvip = s.mvip) ∧ (tgt ≠ .hvien → t.hvien = s.hvien) ∧
  (tgt ≠ .hvip → tgt ≠ .vsip → t.hvip = s.hvip) ∧ (tgt ≠ .vsie → t.vsie = s.vsie) ∧ (tgt ≠ .vsip → t.vsip = s.vsip) ∧
  (tgt ≠ .mideleg → t.mideleg = s.mideleg) ∧ (tgt ≠ .hideleg → t.hideleg = s.hideleg)

/-- Two states agree on every control, counter, select, state-enable and interrupt register. -/
def sameCsrs (s t : State) : Prop :=
  t.menvcfg = s.menvcfg ∧ t.mcounteren = s.mcounteren ∧ t.scounteren = s.scounteren ∧ t.hcounteren = s.hcounteren ∧
  t.mcountinhibit = s.mcountinhibit ∧ t.ctr = s.ctr ∧ t.ccfg = s.ccfg ∧ t.siselect = s.siselect ∧
  t.vsiselect = s.vsiselect ∧ t.mstateen0 = s.mstateen0 ∧ t.hstateen0 = s.hstateen0 ∧
  t.mie = s.mie ∧ t.mip = s.mip ∧ t.sie = s.sie ∧ t.sip = s.sip ∧ t.mvien = s.mvien ∧ t.mvip = s.mvip ∧
  t.hvien = s.hvien ∧ t.hvip = s.hvip ∧ t.vsie = s.vsie ∧ t.vsip = s.vsip ∧ t.mideleg = s.mideleg ∧
  t.hideleg = s.hideleg

end Sys2Proof.Machine
end

