-- ==== Sys2Proof/Certificates/Slice0/Obligations.lean ====
section
/-! DEFINITION. The statements about the machine, each formalising rules of spec/ (OBLIGATIONS.json lists them). -/

open Sys2Proof Sys2Proof.Machine

/-! ## Reset and the invariant -/

/-- 10_state.md R56, 70_reset_and_hazards.md R230: the values the spec gives for reset. Every other register's value at
reset, and the implementation `Config.reset`, are the model's choices (log entries 5 and 14) and stand in no clause. -/
def Obligations.ResetGivesTheStatedValues : Prop :=
  State.reset.priv = .m ∧ State.reset.virt = false ∧ State.reset.mode = .m ∧
  State.reset.pc = State.reset.cfg.resetVector ∧ State.reset.mstateen0 = 0

/-- The state after reset meets the invariant. -/
def Obligations.ResetMeetsInvariant : Prop := State.reset.Inv

/-- Every step keeps the invariant: the parameters and memory keep their form (20_memory.md R70), `priv` and `V` name a
mode the hart has (10_state.md R22), `pc` stays 4-byte aligned (R21, 40_csr_instructions.md R115), registers hold
`XLEN`-bit values (R20), read-only-zero bits stay zero (R26 to R31). -/
def Obligations.StepKeepsInvariant : Prop :=
  ∀ s t : State, s.Inv → step s = .next t → t.Inv

/-- No step changes a parameter or a byte of memory (00_scope.md R5, 20_memory.md R70, 40_csr_instructions.md R116). -/
def Obligations.StepKeepsParametersAndMemory : Prop :=
  ∀ s t : State, step s = .next t → t.cfg = s.cfg ∧ ∀ a : Nat, Memory.read t.mem a = Memory.read s.mem a

/-! ## Encoding (30_encoding.md) -/

/-- Decoding an encoded instruction gives it back, with every operand at every value (30_encoding.md R86 to R88). -/
def Obligations.DecodeOfEncodeIsTheInstruction : Prop :=
  ∀ i : Instr, decodeWord (encode i) = .ok i ∧ ∀ rest : List Byte, decode (encodeBytes i ++ rest) = .ok (i, rest)

/-- A word that decodes is the encoding of what it decodes to: no bit of a word is dropped, so the trap value made from
the encoding is the word that was fetched. -/
def Obligations.EncodeOfDecodeIsTheWord : Prop :=
  ∀ (w : BitVec 32) (i : Instr), decodeWord w = .ok i → encode i = w

/-- 30_encoding.md R87: a word is the instruction of a row exactly when it agrees with the row's match under the mask,
and a word that agrees with no row is rejected: the model's `OutOfScope`. -/
def Obligations.DecoderFollowsTheOpcodeTable : Prop :=
  ∀ w : BitVec 32,
    (w &&& 0x0000707F = 0x00001073 ↔ ∃ rd csr rs1, decodeWord w = .ok (.csrrw rd csr rs1)) ∧
    (w &&& 0x0000707F = 0x00002073 ↔ ∃ rd csr rs1, decodeWord w = .ok (.csrrs rd csr rs1)) ∧
    (w &&& 0x0000707F = 0x00003073 ↔ ∃ rd csr rs1, decodeWord w = .ok (.csrrc rd csr rs1)) ∧
    (w &&& 0x0000707F = 0x00005073 ↔ ∃ rd csr uimm, decodeWord w = .ok (.csrrwi rd csr uimm)) ∧
    (w &&& 0x0000707F = 0x00006073 ↔ ∃ rd csr uimm, decodeWord w = .ok (.csrrsi rd csr uimm)) ∧
    (w &&& 0x0000707F = 0x00007073 ↔ ∃ rd csr uimm, decodeWord w = .ok (.csrrci rd csr uimm)) ∧
    ((w &&& 0x0000707F ≠ 0x00001073 ∧ w &&& 0x0000707F ≠ 0x00002073 ∧ w &&& 0x0000707F ≠ 0x00003073 ∧
      w &&& 0x0000707F ≠ 0x00005073 ∧ w &&& 0x0000707F ≠ 0x00006073 ∧ w &&& 0x0000707F ≠ 0x00007073) ↔
      ∃ why, decodeWord w = .error why)

/-- Words of the spec's worked examples (40_csr_instructions.md R100 to R105) decode to the instructions they stand for.
-/
def Obligations.SpecWordsDecode : Prop :=
  decodeWord 0x15031073 = .ok (.csrrw 0 0x150 6) ∧ decodeWord 0x15102473 = .ok (.csrrs 8 0x151 0) ∧
  decodeWord 0x15253073 = .ok (.csrrc 0 0x152 10) ∧ decodeWord 0x12005073 = .ok (.csrrwi 0 0x120 0) ∧
  decodeWord 0x1202E3F3 = .ok (.csrrsi 7 0x120 5) ∧ decodeWord 0x120FF073 = .ok (.csrrci 0 0x120 31)

/-- 10_state.md R23: which CSR each number of the table names, the single numbers one by one and the runs of counter and
configuration numbers by the counter index `i`, and that no other number names one. 30_encoding.md R93 gives 0x154 and
0x254, which are known numbers that name no register; that they are known, and that 0x106, 0x31C, 0x61C, 0x606, 0x304
and 0x344, which R90 does not spell out, are too, is the model's reading (log entry 6). -/
def Obligations.CsrNumbersFollowTheTable : Prop :=
  (Csr.ofNumber 0x120 = some .scountinhibit ∧ Csr.ofNumber 0xDA0 = some .scountovf ∧
    Csr.ofNumber 0x106 = some .scounteren ∧ Csr.ofNumber 0x306 = some .mcounteren ∧
    Csr.ofNumber 0x606 = some .hcounteren ∧ Csr.ofNumber 0x320 = some .mcountinhibit) ∧
  (Csr.ofNumber 0x150 = some .siselect ∧ Csr.ofNumber 0x151 = some (.sireg .reg1) ∧
    Csr.ofNumber 0x152 = some (.sireg .reg2) ∧ Csr.ofNumber 0x153 = some (.sireg .reg3) ∧
    Csr.ofNumber 0x155 = some (.sireg .reg4) ∧ Csr.ofNumber 0x156 = some (.sireg .reg5) ∧
    Csr.ofNumber 0x157 = some (.sireg .reg6)) ∧
  (Csr.ofNumber 0x250 = some .vsiselect ∧ Csr.ofNumber 0x251 = some (.vsireg .reg1) ∧
    Csr.ofNumber 0x252 = some (.vsireg .reg2) ∧ Csr.ofNumber 0x253 = some (.vsireg .reg3) ∧
    Csr.ofNumber 0x255 = some (.vsireg .reg4) ∧ Csr.ofNumber 0x256 = some (.vsireg .reg5) ∧
    Csr.ofNumber 0x257 = some (.vsireg .reg6)) ∧
  (Csr.ofNumber 0x30A = some (.menvcfg .low) ∧ Csr.ofNumber 0x31A = some (.menvcfg .high) ∧
    Csr.ofNumber 0x30C = some (.mstateen0 .low) ∧ Csr.ofNumber 0x31C = some (.mstateen0 .high) ∧
    Csr.ofNumber 0x60C = some (.hstateen0 .low) ∧ Csr.ofNumber 0x61C = some (.hstateen0 .high)) ∧
  (Csr.ofNumber 0x304 = some .mie ∧ Csr.ofNumber 0x344 = some .mip ∧ Csr.ofNumber 0x104 = some .sie ∧
    Csr.ofNumber 0x144 = some .sip ∧ Csr.ofNumber 0x204 = some .vsie ∧ Csr.ofNumber 0x244 = some .vsip ∧
    Csr.ofNumber 0x308 = some .mvien ∧ Csr.ofNumber 0x309 = some .mvip ∧ Csr.ofNumber 0x608 = some .hvien ∧
    Csr.ofNumber 0x645 = some .hvip ∧ Csr.ofNumber 0x303 = some .mideleg ∧ Csr.ofNumber 0x603 = some .hideleg) ∧
  (Csr.ofNumber 0x321 = some (.config 0 .low) ∧ Csr.ofNumber 0x322 = some (.config 2 .low) ∧
    Csr.ofNumber 0x721 = some (.config 0 .high) ∧ Csr.ofNumber 0x722 = some (.config 2 .high)) ∧
  (∀ i : CounterIx, 3 ≤ i.val →
    Csr.ofNumber (0x320#12 + BitVec.ofNat 12 i.val) = some (.config i .low) ∧
    Csr.ofNumber (0x720#12 + BitVec.ofNat 12 i.val) = some (.config i .high)) ∧
  (∀ i : CounterIx, i ≠ 1 →
    Csr.ofNumber (0xB00#12 + BitVec.ofNat 12 i.val) = some (.counter i .low) ∧
    Csr.ofNumber (0xB80#12 + BitVec.ofNat 12 i.val) = some (.counter i .high)) ∧
  (∀ i : CounterIx,
    Csr.ofNumber (0xC00#12 + BitVec.ofNat 12 i.val) = some (.userCounter i .low) ∧
    Csr.ofNumber (0xC80#12 + BitVec.ofNat 12 i.val) = some (.userCounter i .high)) ∧
  (Csr.ofNumber 0x154 = some .absent ∧ Csr.ofNumber 0x254 = some .absent) ∧
  (∀ n : CsrNum, (Csr.ofNumber n).isSome = true ↔
    n ∈ [0x120#12, 0x150, 0x151, 0x152, 0x153, 0x154, 0x155, 0x156, 0x157, 0x250, 0x251, 0x252, 0x253, 0x254, 0x255,
      0x256, 0x257, 0xDA0, 0x106, 0x104, 0x144, 0x204, 0x244, 0x306, 0x30A, 0x31A, 0x30C, 0x31C, 0x60C, 0x61C, 0x303,
      0x603, 0x606, 0x308, 0x309, 0x608, 0x645, 0x304, 0x344, 0xB00, 0xB80] ∨
    (0x320 ≤ n.toNat ∧ n.toNat ≤ 0x33F) ∨ (0x721 ≤ n.toNat ∧ n.toNat ≤ 0x73F) ∨
    (0xB02 ≤ n.toNat ∧ n.toNat ≤ 0xB1F) ∨ (0xB82 ≤ n.toNat ∧ n.toNat ≤ 0xB9F) ∨
    (0xC00 ≤ n.toNat ∧ n.toNat ≤ 0xC1F) ∨ (0xC80 ≤ n.toNat ∧ n.toNat ≤ 0xC9F))

/-! ## The step -/

/-- When no LCOFI is taken and the four bytes at an aligned `pc` decode to an instruction, the step is that
instruction's meaning, and the environment then acts (20_memory.md R70, 70_reset_and_hazards.md R238). -/
def Obligations.StepRunsTheDecodedInstruction : Prop :=
  ∀ (s : State) (bytes rest : List Byte) (i : Instr),
    s.lcofiTaken = none → s.pc.toNat % 4 = 0 → Memory.readBytes s.mem s.pc.toNat 4 = some bytes →
    decode bytes = .ok (i, rest) →
    step s = match exec i s with
      | .next t => .next (environment (s.retirement i) t)
      | .fault f => .fault f
      | .refused r => .refused r

/-- The word of an instruction placed at an aligned `pc` is what the next step runs (20_memory.md R71: byte order). -/
def Obligations.PlacedInstructionIsRunNext : Prop :=
  ∀ (s : State) (i : Instr), s.lcofiTaken = none → s.pc.toNat % 4 = 0 →
    let p := s.withFetchWord 32 (encode i).toNat
    (∀ a : Nat, (a < s.pc.toNat ∨ s.pc.toNat + 4 ≤ a) → Memory.read p.mem a = Memory.read s.mem a) ∧
    step p = match exec i p with
      | .next t => .next (environment (p.retirement i) t)
      | .fault f => .fault f
      | .refused r => .refused r

/-- 20_memory.md R72, 30_encoding.md R92: where a fetch gives no instruction the step stops under a name. That a missing
byte is a fault is the model's choice (log entry 7). -/
def Obligations.FetchStopsByName : Prop :=
  ∀ s : State, s.lcofiTaken = none →
    (s.pc.toNat % 4 ≠ 0 → step s = .refused .fetchMisaligned) ∧
    (s.pc.toNat % 4 = 0 → Memory.readBytes s.mem s.pc.toNat 4 = none → step s = .fault .fetchNoByte) ∧
    (∀ bytes why, s.pc.toNat % 4 = 0 → Memory.readBytes s.mem s.pc.toNat 4 = some bytes → decode bytes = .error why →
      step s = .refused (.notCsrInstruction why))

/-! ## The six instructions (40_csr_instructions.md R100 to R105) -/

/-- R100: CSRRW writes `x[rs1]` to the register reached, whenever the access is
permitted and reaches a register; the old value, read first, goes to `rd` and `pc` moves by 4. Otherwise it raises what
the access raises. Its encoding matches the row of CSRRW. -/
def Obligations.CsrrwCompletes : Prop :=
  ∀ (rd rs1 : Reg) (csr : CsrNum) (s : State),
    encode (.csrrw rd csr rs1) &&& 0x0000707F = 0x00001073 ∧
    (∀ e, s.access csr true = .raise e → Raises e (.csrrw rd csr rs1) s) ∧
    ∀ (c : Csr) (tgt : Target),
      Csr.ofNumber csr = some c → s.permission csr c true = none → s.resolve c = .reach tgt → s.pcInRange →
      exec (.csrrw rd csr rs1) s = .next
        { (tgt.write (s.reg rs1) s).setReg rd (tgt.read s) with
          pc := s.pc + 4 }

/-- R101: CSRRS writes the old value with the bits of `x[rs1]` set, or writes nothing when `rs1` is `x0`, whenever the
access is permitted and reaches a register; the old value, read first, goes to `rd` and `pc` moves by 4. Otherwise it
raises what the access raises. Its encoding matches the row of CSRRS. -/
def Obligations.CsrrsCompletes : Prop :=
  ∀ (rd rs1 : Reg) (csr : CsrNum) (s : State),
    encode (.csrrs rd csr rs1) &&& 0x0000707F = 0x00002073 ∧
    (∀ e, s.access csr (rs1 != 0) = .raise e → Raises e (.csrrs rd csr rs1) s) ∧
    ∀ (c : Csr) (tgt : Target),
      Csr.ofNumber csr = some c → s.permission csr c (rs1 != 0) = none → s.resolve c = .reach tgt → s.pcInRange →
      exec (.csrrs rd csr rs1) s = .next
        { (if rs1 = 0 then s else tgt.write (tgt.read s ||| s.reg rs1) s).setReg rd (tgt.read s) with
          pc := s.pc + 4 }

/-- R102: CSRRC writes the old value with the bits of `x[rs1]` cleared, or writes nothing when `rs1` is `x0`, whenever
the access is permitted and reaches a register; the old value, read first, goes to `rd` and `pc` moves by 4. Otherwise
it raises what the access raises. Its encoding matches the row of CSRRC. -/
def Obligations.CsrrcCompletes : Prop :=
  ∀ (rd rs1 : Reg) (csr : CsrNum) (s : State),
    encode (.csrrc rd csr rs1) &&& 0x0000707F = 0x00003073 ∧
    (∀ e, s.access csr (rs1 != 0) = .raise e → Raises e (.csrrc rd csr rs1) s) ∧
    ∀ (c : Csr) (tgt : Target),
      Csr.ofNumber csr = some c → s.permission csr c (rs1 != 0) = none → s.resolve c = .reach tgt → s.pcInRange →
      exec (.csrrc rd csr rs1) s = .next
        { (if rs1 = 0 then s else tgt.write (tgt.read s &&& ~~~s.reg rs1) s).setReg rd (tgt.read s) with
          pc := s.pc + 4 }

/-- R103: CSRRWI writes the zero-extended immediate, whenever the access is
permitted and reaches a register; the old value, read first, goes to `rd` and `pc` moves by 4. Otherwise it raises what
the access raises. Its encoding matches the row of CSRRWI. -/
def Obligations.CsrrwiCompletes : Prop :=
  ∀ (rd : Reg) (csr : CsrNum) (uimm : Uimm) (s : State),
    encode (.csrrwi rd csr uimm) &&& 0x0000707F = 0x00005073 ∧
    (∀ e, s.access csr true = .raise e → Raises e (.csrrwi rd csr uimm) s) ∧
    ∀ (c : Csr) (tgt : Target),
      Csr.ofNumber csr = some c → s.permission csr c true = none → s.resolve c = .reach tgt → s.pcInRange →
      exec (.csrrwi rd csr uimm) s = .next
        { (tgt.write (uimm.setWidth 64) s).setReg rd (tgt.read s) with
          pc := s.pc + 4 }

/-- R104: CSRRSI writes the old value with the bits of the immediate set, or writes nothing when it is 0, whenever the
access is permitted and reaches a register; the old value, read first, goes to `rd` and `pc` moves by 4. Otherwise it
raises what the access raises. Its encoding matches the row of CSRRSI. -/
def Obligations.CsrrsiCompletes : Prop :=
  ∀ (rd : Reg) (csr : CsrNum) (uimm : Uimm) (s : State),
    encode (.csrrsi rd csr uimm) &&& 0x0000707F = 0x00006073 ∧
    (∀ e, s.access csr (uimm != 0) = .raise e → Raises e (.csrrsi rd csr uimm) s) ∧
    ∀ (c : Csr) (tgt : Target),
      Csr.ofNumber csr = some c → s.permission csr c (uimm != 0) = none → s.resolve c = .reach tgt → s.pcInRange →
      exec (.csrrsi rd csr uimm) s = .next
        { (if uimm = 0 then s else tgt.write (tgt.read s ||| uimm.setWidth 64) s).setReg rd (tgt.read s) with
          pc := s.pc + 4 }

/-- R105: CSRRCI writes the old value with the bits of the immediate cleared, or writes nothing when it is 0, whenever
the access is permitted and reaches a register; the old value, read first, goes to `rd` and `pc` moves by 4. Otherwise
it raises what the access raises. Its encoding matches the row of CSRRCI. -/
def Obligations.CsrrciCompletes : Prop :=
  ∀ (rd : Reg) (csr : CsrNum) (uimm : Uimm) (s : State),
    encode (.csrrci rd csr uimm) &&& 0x0000707F = 0x00007073 ∧
    (∀ e, s.access csr (uimm != 0) = .raise e → Raises e (.csrrci rd csr uimm) s) ∧
    ∀ (c : Csr) (tgt : Target),
      Csr.ofNumber csr = some c → s.permission csr c (uimm != 0) = none → s.resolve c = .reach tgt → s.pcInRange →
      exec (.csrrci rd csr uimm) s = .next
        { (if uimm = 0 then s else tgt.write (tgt.read s &&& ~~~uimm.setWidth 64) s).setReg rd (tgt.read s) with
          pc := s.pc + 4 }

/-- R107: an instruction whose access raises takes that exception, one whose access is out of scope is refused under
its name, and one whose access reaches a register is refused only where `pc + 4` wraps (10_state.md R21). -/
def Obligations.AccessDecidesTheOutcome : Prop :=
  ∀ (i : Instr) (s : State),
    (∀ e, s.access i.csrNum (wantsWrite i) = .raise e → Raises e i s) ∧
    (∀ r, s.access i.csrNum (wantsWrite i) = .refuse r → OutOfScope r i s) ∧
    (∀ tgt, s.access i.csrNum (wantsWrite i) = .reach tgt → ¬ s.pcInRange → OutOfScope .pcWraps i s)

/-- R100 to R105, the frame of an instruction that completes: every general register but `rd` keeps its value, `rd`
receives the value read (and `x0` reads zero), of the CSRs only what a write of the register reached may change differs,
nothing differs when no write is wanted, every byte of memory reads as before, and the parameters, the mode and the trap
registers stand. -/
def Obligations.CompletedInstructionFrame : Prop :=
  ∀ (i : Instr) (s t : State) (tgt : Target),
    s.access i.csrNum (wantsWrite i) = .reach tgt → exec i s = .next t →
    (∀ r : Reg, r ≠ i.rd → t.reg r = s.reg r) ∧ (t.reg i.rd = if i.rd = 0 then 0 else tgt.read s) ∧
    onlyTargetDiffers tgt s t ∧ (wantsWrite i = false → sameCsrs s t) ∧ sameOutside s t ∧ t.pc = s.pc + 4 ∧
    ∀ a : Nat, Memory.read t.mem a = Memory.read s.mem a

/-- 10_state.md R20: with `rd` = `x0` no general register changes. -/
def Obligations.DestinationX0IsDiscarded : Prop :=
  ∀ (i : Instr) (s t : State), i.rd = 0 → exec i s = .next t → t.x = s.x ∧ t.reg 0 = 0

/-! ## Permission (40_csr_instructions.md R108, R109) -/

/-- R108 steps 1 to 3: a CSR that does not exist, a machine-level CSR below M-mode, a supervisor or hypervisor-level CSR
from U-mode, and a write attempt on a read-only number each raise an illegal instruction exception. Steps 5 and 6 (and
60_exceptions.md R218): of the CSRs that exist, a hypervisor-level one from VS or VU mode, and a supervisor-level one from
VU-mode, raise a virtual instruction exception; the ones that a state-enable bit gates or whose number is read-only have
statements of their own. -/
def Obligations.ExistencePrivilegeAndReadOnlyChecks : Prop :=
  ∀ (i : Instr) (s : State) (c : Csr), names i c →
    (s.csrExists c = false ∨ (level i.csrNum = .machine ∧ s.mode ≠ .m) ∨
      (s.mode = .u ∧ (level i.csrNum = .supervisor ∨ level i.csrNum = .hypervisor)) ∨
      (wantsWrite i = true ∧ readOnlyNumber i.csrNum = true) → Raises .illegal i s) ∧
    (s.csrExists c = true → s.mode = .vs ∨ s.mode = .vu →
      c ∈ [.hideleg, .hcounteren, .hvien, .hvip, .vsie, .vsip, .hstateen0 .low, .hstateen0 .high] → Raises .virtual i s) ∧
    (s.csrExists c = true → s.mode = .vu → c ∈ [.scounteren, .sie, .sip] → Raises .virtual i s)

/-- 30_encoding.md R93, 40_csr_instructions.md R112: an access to a number of the CSR table whose "exists when" condition
(10_state.md R23) does not hold on this hart raises an illegal instruction exception, in every mode; and a number whose
condition holds names a CSR that exists. R93 itself names 0x154 and 0x254. That these two are known numbers (against R92
and R107), and that 0x106, 0x31C, 0x61C and 0x606, which R90 does not spell out, are too, is the model's reading
(DEDUCED, log entry 6). -/
def Obligations.AbsentNumbersRaise : Prop :=
  ∀ (i : Instr) (s : State),
    let g := s.cfg
    let n := i.csrNum
    let within := fun lo hi : Nat => lo ≤ n.toNat ∧ n.toNat ≤ hi
    let absent : Prop :=
      (n = 0x120 ∧ s.cde = false) ∨ n = 0x154 ∨ n = 0x254 ∨
      ((within 0x150 0x157 ∨ within 0x250 0x257) ∧ g.hasSscsrind = false) ∨ (within 0x250 0x257 ∧ g.hasH = false) ∨
      (n = 0xDA0 ∧ g.hasSscofpmf = false) ∨
      ((n = 0x106 ∨ n = 0x104 ∨ n = 0x144 ∨ n = 0x303) ∧ g.hasSMode = false) ∨
      ((n = 0x204 ∨ n = 0x244 ∨ n = 0x603 ∨ n = 0x606 ∨ n = 0x645) ∧ g.hasH = false) ∨
      ((n = 0x30C ∨ n = 0x31C) ∧ g.hasSmstateen = false) ∨
      ((n = 0x60C ∨ n = 0x61C) ∧ (g.hasSmstateen = false ∨ g.hasH = false)) ∨
      ((n = 0x308 ∨ n = 0x309) ∧ g.hasSmaia = false) ∨ (n = 0x608 ∧ (g.hasSsaia = false ∨ g.hasH = false)) ∨
      ((n = 0x321 ∨ n = 0x322 ∨ n = 0x721 ∨ n = 0x722) ∧ g.hasSmcntrpmf = false) ∨
      (within 0x723 0x73F ∧ g.hasSscofpmf = false) ∨
      (g.xlen = .rv64 ∧ (n = 0x31A ∨ n = 0x31C ∨ n = 0x61C ∨ within 0x721 0x73F ∨ n = 0xB80 ∨ within 0xB82 0xB9F ∨
        within 0xC80 0xC9F)) ∨
      (g.hasZicntr = false ∧ (within 0xC00 0xC02 ∨ within 0xC80 0xC82)) ∨
      (g.hasZihpm = false ∧ (within 0xC03 0xC1F ∨ within 0xC83 0xC9F))
    (absent → Raises .illegal i s) ∧ ∀ c, names i c → (s.csrExists c = false ↔ absent)

/-- 30_encoding.md R92, 40_csr_instructions.md R107 step 1: an access to a number that the table of 10_state.md R23 does
not list is out of scope: neither an exception nor a no-op. -/
def Obligations.UnlistedNumbersAreOutOfScope : Prop :=
  ∀ (i : Instr) (s : State), i.WellFormed = false → OutOfScope .csrNumberOutOfScope i s

/-- R109: with Smstateen, `mstateen0[60]` = 0 makes every access below M-mode to `siselect`, `sireg*`, `vsiselect`,
`vsireg*` an illegal instruction exception; with `mstateen0[60]` = 1, `hstateen0[60]` = 0 makes every access from
VS-mode to `siselect`, `sireg*` a virtual instruction exception. -/
def Obligations.StateEnableBitsBlockTheIndirectCsrs : Prop :=
  ∀ (i : Instr) (s : State) (c : Csr), names i c → s.cfg.hasSmstateen = true → s.cfg.hasSscsrind = true →
    (c = .siselect ∨ (∃ k, c = .sireg k) ∨ c = .vsiselect ∨ (∃ k, c = .vsireg k) → s.mode ≠ .m →
      s.mstateen0.getLsbD 60 = false → Raises .illegal i s) ∧
    (c = .siselect ∨ (∃ k, c = .sireg k) → s.mode = .vs → s.cfg.hasH = true → s.mstateen0.getLsbD 60 = true →
      s.hstateen0.getLsbD 60 = false → Raises .virtual i s)

/-! ## Select registers (10_state.md R34, R36; 40_csr_instructions.md R110; 44_virtualization.md R171) -/

/-- R110, R171, 00_scope.md R7: writing any value to `siselect` or `vsiselect` raises nothing, whatever CDE and
`mcounteren` are, and from VS-mode the number of `siselect` reaches `vsiselect`. On a hart with Smcdeleg a value of
0x40..0x5F is held exactly; of another value, and of every value on a hart without Smcdeleg, the legaliser of the
register decides. That `siselect` also holds 0..0xFFF where the parameter `siselectMinimum` says so is log entry 20. -/
def Obligations.SelectRegistersHoldLegalValues : Prop :=
  ∀ (rd rs1 : Reg) (s : State), s.cfg.hasSscsrind = true → s.stateenOpen → s.pcInRange →
    let v := s.reg rs1
    let windowValue : Prop := s.cfg.hasSmcdeleg = true ∧ inWindow v = true
    let legal := fun (l : Legaliser) (t : Target) (old : Word) => trunc s.cfg.xlen (legalise l t.tag old v)
    let siselect' := if windowValue ∨ (s.cfg.siselectMinimum = true ∧ v.toNat ≤ 0xFFF) then v
      else legal s.cfg.siselectLegal .siselect s.siselect
    let vsiselect' := if windowValue then v else legal s.cfg.vsiselectLegal .vsiselect s.vsiselect
    (s.virt = false → s.priv ≠ .u →
      exec (.csrrw rd 0x150 rs1) s = .next
        { ({ s with siselect := siselect' } : State).setReg rd (trunc s.cfg.xlen s.siselect) with pc := s.pc + 4 }) ∧
    (s.virt = true → s.priv = .s → s.cfg.hasH = true →
      exec (.csrrw rd 0x150 rs1) s = .next
        { ({ s with vsiselect := vsiselect' } : State).setReg rd (trunc s.cfg.xlen s.vsiselect) with pc := s.pc + 4 }) ∧
    (s.virt = false → s.priv ≠ .u → s.cfg.hasH = true →
      exec (.csrrw rd 0x250 rs1) s = .next
        { ({ s with vsiselect := vsiselect' } : State).setReg rd (trunc s.cfg.xlen s.vsiselect) with pc := s.pc + 4 })

/-! ## The window (42_indirect_counter_access.md) -/

/-- R142 to R146, R148: the illegal instruction exceptions of an access to `sireg*` from M or S mode while `siselect`
holds a value of 0x40..0x5F, for every one of the six instructions, whether it reads or writes. On a hart without
Smcdeleg they apply where the parameter `absentWindow` says so (log entry 17; `OutsideTheWindowIsOutOfScope` states the
other case). -/
def Obligations.WindowExceptionList : Prop :=
  ∀ (i : Instr) (s : State) (k : IndirectReg),
    names i (.sireg k) → s.virt = false → s.priv ≠ .u → s.cfg.hasSscsrind = true → s.stateenOpen → s.windowApplies →
    inWindow (trunc s.cfg.xlen s.siselect) = true →
    let ix := windowIx s.siselect
    (trunc s.cfg.xlen s.siselect).toNat = 0x40 + ix.val ∧
    (s.cde = false → Raises .illegal i s) ∧
    (k = .reg3 ∨ k = .reg6 → Raises .illegal i s) ∧
    ((k = .reg4 ∨ k = .reg5) → s.cfg.xlen = .rv64 → Raises .illegal i s) ∧
    (trunc s.cfg.xlen s.siselect = 0x41 → Raises .illegal i s) ∧
    (s.mcounteren.getLsbD ix.val = false → Raises .illegal i s) ∧
    ((ix = 0 ∨ ix = 2) → (s.cfg.hasZicntr = false ∨ ((k = .reg2 ∨ k = .reg5) ∧ s.cfg.hasSmcntrpmf = false)) →
      Raises .illegal i s) ∧
    (3 ≤ ix.val → (s.cfg.hasZihpm = false ∨ (k = .reg5 ∧ s.cfg.hasSscofpmf = false)) → Raises .illegal i s)

/-- R147, R154: where none of those conditions holds, the access completes over the cell of Table 1. -/
def Obligations.DelegatedCounterIsReachedThroughTheWindow : Prop :=
  ∀ (i : Instr) (s : State) (k : IndirectReg),
    names i (.sireg k) → s.virt = false → s.priv ≠ .u → s.cfg.hasSscsrind = true → s.stateenOpen →
    inWindow (trunc s.cfg.xlen s.siselect) = true → s.pcInRange → s.cde = true →
    (s.cfg.xlen = .rv64 → k = .reg1 ∨ k = .reg2) → k ≠ .reg3 → k ≠ .reg6 →
    let ix := windowIx s.siselect
    ix ≠ 1 → s.mcounteren.getLsbD ix.val = true →
    ((ix = 0 ∨ ix = 2) → s.cfg.hasZicntr = true ∧ ((k = .reg2 ∨ k = .reg5) → s.cfg.hasSmcntrpmf = true)) →
    (3 ≤ ix.val → s.cfg.hasZihpm = true ∧ (k = .reg5 → s.cfg.hasSscofpmf = true)) →
    (k = .reg1 → Completes i s (afterAccess i (.counter ix .low) s)) ∧
    (k = .reg4 → Completes i s (afterAccess i (.counter ix .high) s)) ∧
    (k = .reg2 → Completes i s (afterAccess i (.config ix .low true) s)) ∧
    (k = .reg5 → Completes i s (afterAccess i (.config ix .high true) s))

/-- R149: what reading and writing a cell does, in the spec's own formulas; `v` is the `XLEN`-bit value to write. -/
def Obligations.CellReadsAndWrites : Prop :=
  ∀ (s : State) (i : CounterIx) (v : Word), i ≠ 1 →
    let ctr := s.counter i
    let cfg := s.counterCfg i
    let w := s.cfg.counterWmask.get i
    let minh : Word :=
      if (3 ≤ i.val ∧ s.cfg.hasSscofpmf = true) ∨ ((i = 0 ∨ i = 2) ∧ s.cfg.hasSmcntrpmf = true) then 1#64 <<< 62 else 0
    let ctrLeg (n : Word) : Word := (n &&& w) ||| (ctr &&& ~~~w)
    let v32 := v.extractLsb' 0 32
    (s.cfg.xlen = .rv64 →
      (Target.counter i .low).read s = ctr ∧
      (Target.counter i .low).write v s = s.setCounter i (ctrLeg v) ∧
      (Target.config i .low true).read s = cfg &&& ~~~minh ∧
      (Target.config i .low true).write v s =
        s.setCounterCfg i (cfgLegal s.cfg i cfg ((v &&& ~~~minh) ||| (cfg &&& minh)))) ∧
    (s.cfg.xlen = .rv32 →
      (Target.counter i .low).read s = (ctr.extractLsb' 0 32).setWidth 64 ∧
      (Target.counter i .low).write v s = s.setCounter i (ctrLeg (ctr.extractLsb' 32 32 ++ v32)) ∧
      (Target.counter i .high).read s = (ctr.extractLsb' 32 32).setWidth 64 ∧
      (Target.counter i .high).write v s = s.setCounter i (ctrLeg (v32 ++ ctr.extractLsb' 0 32)) ∧
      (Target.config i .low true).read s = (cfg.extractLsb' 0 32).setWidth 64 ∧
      (Target.config i .low true).write v s = s.setCounterCfg i (cfgLegal s.cfg i cfg (cfg.extractLsb' 32 32 ++ v32)) ∧
      (Target.config i .high true).read s = ((cfg &&& ~~~minh).extractLsb' 32 32).setWidth 64 ∧
      (Target.config i .high true).write v s = s.setCounterCfg i (cfgLegal s.cfg i cfg
        (((v32 ++ cfg.extractLsb' 0 32) &&& ~~~minh) ||| (cfg &&& minh))))

/-- R150, R151: through the window MINH reads 0 and keeps its value whatever is written, for an event selector with
Sscofpmf and a counter configuration register with Smcntrpmf; every other bit reads as it is and is written subject to
the register's own WARL rule. -/
def Obligations.MinhIsHiddenAndKeptThroughTheWindow : Prop :=
  ∀ (s : State) (i : CounterIx) (v : Word), s.Inv →
    ((3 ≤ i.val ∧ s.cfg.hasSscofpmf = true) ∨ ((i = 0 ∨ i = 2) ∧ s.cfg.hasSmcntrpmf = true)) →
    (∀ h, (((Target.config i h true).write v s).counterCfg i).getLsbD 62 = (s.counterCfg i).getLsbD 62) ∧
    (s.cfg.xlen = .rv64 → ∀ j, j < 64 →
      ((Target.config i .low true).read s).getLsbD j = (j != 62 && (s.counterCfg i).getLsbD j)) ∧
    (s.cfg.xlen = .rv32 → ∀ j, j < 32 →
      ((Target.config i .low true).read s).getLsbD j = (s.counterCfg i).getLsbD j ∧
      ((Target.config i .high true).read s).getLsbD j = (j != 30 && (s.counterCfg i).getLsbD (32 + j))) ∧
    (∀ m, s.cfg.cfgLegal.get i = .mask m → s.cfg.xlen = .rv64 → ∀ j, j < 64 → j ≠ 62 →
      (((Target.config i .low true).write v s).counterCfg i).getLsbD j =
        if m.getLsbD j then v.getLsbD j else (s.counterCfg i).getLsbD j)

/-- R156, 40_csr_instructions.md R111: a select value outside 0x40..0x5F is out of scope, from M or S mode through
`sireg*` and `vsireg*` and from VS-mode through `sireg*`; and so is every select value on a hart without Smcdeleg that
gives the range no meaning (93_implementation_defined.md U2; log entry 17). -/
def Obligations.OutsideTheWindowIsOutOfScope : Prop :=
  ∀ (i : Instr) (s : State) (k : IndirectReg), s.cfg.hasSscsrind = true → s.stateenOpen →
    (s.virt = false → s.priv ≠ .u → names i (.sireg k) →
      inWindow (trunc s.cfg.xlen s.siselect) = false ∨ ¬ s.windowApplies → OutOfScope .otherIndirect i s) ∧
    (s.virt = true → s.priv = .s → s.cfg.hasH = true → names i (.sireg k) →
      inWindow (trunc s.cfg.xlen s.vsiselect) = false ∨ ¬ s.windowApplies → OutOfScope .otherIndirect i s) ∧
    (s.virt = false → s.priv ≠ .u → s.cfg.hasH = true → names i (.vsireg k) →
      inWindow (trunc s.cfg.xlen s.vsiselect) = false ∨ ¬ s.windowApplies → OutOfScope .otherIndirect i s)

/-! ## `scountinhibit` (43_scountinhibit.md) -/

/-- R163, R164: an access to CSR 0x120 with CDE = 0 raises an illegal instruction exception in every mode, VS and VU
included; with CDE = 1 one from VS or VU mode raises a virtual instruction exception. -/
def Obligations.ScountinhibitExceptions : Prop :=
  ∀ (i : Instr) (s : State), i.csrNum = 0x120 →
    (s.cde = false → Raises .illegal i s) ∧
    (s.cde = true → s.mode = .vs ∨ s.mode = .vu → Raises .virtual i s)

/-- R166, R167: with CDE = 1 an access to CSR 0x120 from U-mode raises an illegal instruction exception, and one from M or
S mode completes, whatever the state-enable bits are. -/
def Obligations.ScountinhibitIsASupervisorRegister : Prop :=
  ∀ (i : Instr) (s : State), i.csrNum = 0x120 → s.cde = true →
    (s.mode = .u → Raises .illegal i s) ∧
    (s.virt = false → s.priv ≠ .u → s.pcInRange → Completes i s (afterAccess i .scountinhibit s))

/-- R161, R162: in M or S mode with CDE = 1 the value read is `mcountinhibit & mcounteren`, zero-extended, and a write
reaches the bits of delegated counters only, where they are writable; every other bit of `mcountinhibit`, and every
other CSR, keeps its value, whichever instruction writes. -/
def Obligations.ScountinhibitIsAMaskedView : Prop :=
  ∀ (i : Instr) (s : State), i.csrNum = 0x120 → s.cde = true → s.virt = false → s.priv ≠ .u → s.pcInRange →
    let old : Word := (s.mcountinhibit &&& s.mcounteren).setWidth 64
    ∃ t, Completes i s t ∧ (t.reg i.rd = if i.rd = 0 then 0 else old) ∧
      (∀ j, j < 32 → t.mcountinhibit.getLsbD j =
        if wantsWrite i && s.mcounteren.getLsbD j && s.cfg.mcountinhibitWmask.getLsbD j
        then (writtenValue i s old).getLsbD j else s.mcountinhibit.getLsbD j) ∧
      sameCsrs { s with mcountinhibit := t.mcountinhibit } t

/-! ## The hypervisor extension (44_virtualization.md) -/

/-- R172 to R174: from VS or VU mode an access to `vsiselect` or `vsireg*` raises a virtual instruction exception, unless
`mstateen0[60]` = 0 makes it an illegal one; from VS-mode an access to `sireg*` with `vsiselect` in the window raises by
CDE; from M or S mode one to `vsireg*` with `vsiselect` in the window raises an illegal instruction exception, while
`vsiselect` itself is an ordinary register there. Without Smcdeleg the two clauses on the window hold where the parameter
`absentWindow` says so (log entry 17). -/
def Obligations.VirtualizedIndirectAccessOutcomes : Prop :=
  ∀ (i : Instr) (s : State) (c : Csr), names i c → s.cfg.hasSscsrind = true → s.cfg.hasH = true →
    (s.mode = .vs ∨ s.mode = .vu → (c = .vsiselect ∨ ∃ k, c = .vsireg k) →
      if s.cfg.hasSmstateen = true ∧ s.mstateen0.getLsbD 60 = false then Raises .illegal i s else Raises .virtual i s) ∧
    (s.virt = false → s.priv ≠ .u → s.stateenOpen → s.windowApplies → (∃ k, c = .vsireg k) →
      inWindow (trunc s.cfg.xlen s.vsiselect) = true → Raises .illegal i s) ∧
    (s.virt = false → s.priv ≠ .u → s.stateenOpen → c = .vsiselect → s.pcInRange →
      Completes i s (afterAccess i .vsiselect s)) ∧
    (s.mode = .vs → s.stateenOpen → s.windowApplies → (∃ k, c = .sireg k) →
      inWindow (trunc s.cfg.xlen s.vsiselect) = true →
      if s.cde = true then Raises .virtual i s else Raises .illegal i s)

/-- R175: from VU-mode an access to `siselect` or `sireg*` raises a virtual instruction exception whatever CDE and the
select value are, unless `mstateen0[60]` = 0 makes it an illegal one. -/
def Obligations.VirtualUserIndirectAccessRaises : Prop :=
  ∀ (i : Instr) (s : State) (c : Csr), names i c → s.cfg.hasSscsrind = true →
    s.mode = .vu → (c = .siselect ∨ ∃ k, c = .sireg k) →
    if s.cfg.hasSmstateen = true ∧ s.mstateen0.getLsbD 60 = false then Raises .illegal i s else Raises .virtual i s

/-- R177: the outcome of an access to `scountovf`, and the value it reads. -/
def Obligations.ScountovfOutcomes : Prop :=
  ∀ (i : Instr) (s : State), i.csrNum = 0xDA0 →
    (s.cfg.hasSscofpmf = false → Raises .illegal i s) ∧
    (s.mode = .u → Raises .illegal i s) ∧
    (wantsWrite i = true → Raises .illegal i s) ∧
    (s.cfg.hasSscofpmf = true → wantsWrite i = false →
      (s.mode = .vu → Raises .virtual i s) ∧
      (s.mode = .vs → s.cfg.hasSmcdeleg = true → s.cde = true → Raises .virtual i s) ∧
      (s.pcInRange →
        (s.mode = .m ∨ s.mode = .s ∨ (s.mode = .vs ∧ s.cde = false)) →
        ∃ v : Bits32,
          (∀ j : CounterIx, v.getLsbD j.val =
            (decide (3 ≤ j.val) && (s.counterCfg j).getLsbD 63
              && (decide (s.mode = .m) || s.mcounteren.getLsbD j.val)
              && (decide (s.mode ≠ .vs) || s.hcounteren.getLsbD j.val))) ∧
          Completes i s { s.setReg i.rd (v.setWidth 64) with pc := s.pc + 4 }))

/-! ## Delegation as a whole (41_cde_and_delegation.md) -/

/-- R124: a counter is delegated exactly when CDE and its bit of `mcounteren` are 1 now, and only M-mode can change either
register: below M-mode no step does. -/
def Obligations.OnlyMachineModeDelegates : Prop :=
  (∀ (s : State) (i : CounterIx), s.delegated i = true ↔ s.cde = true ∧ s.mcounteren.getLsbD i.val = true) ∧
  ∀ s t : State, s.mode ≠ .m → step s = .next t → t.menvcfg = s.menvcfg ∧ t.mcounteren = s.mcounteren ∧
    ∀ i : CounterIx, t.delegated i = s.delegated i

/-- R126, 43_scountinhibit.md R161: below M-mode no instruction changes the value, the configuration register or the
inhibit bit of a counter that is not delegated. -/
def Obligations.UndelegatedCountersAreOutOfReach : Prop :=
  ∀ (i : Instr) (s t : State) (j : CounterIx), s.mode ≠ .m → s.delegated j = false → exec i s = .next t →
    t.counter j = s.counter j ∧ t.counterCfg j = s.counterCfg j ∧
    t.mcountinhibit.getLsbD j.val = s.mcountinhibit.getLsbD j.val

/-- 42_indirect_counter_access.md R150, R151, 70_reset_and_hazards.md R233: no step taken below M-mode changes the MINH
bit of any counter that has one. -/
def Obligations.MinhIsOutOfReachBelowMachineMode : Prop :=
  ∀ (s t : State) (j : CounterIx), s.Inv → s.mode ≠ .m → hasInhibitBits s.cfg j = true → step s = .next t →
    (t.counterCfg j).getLsbD 62 = (s.counterCfg j).getLsbD 62

/-- 43_scountinhibit.md R164, 44_virtualization.md R171 to R174: from VS or VU mode no instruction changes a counter, a
configuration register, `mcountinhibit` or `siselect`. -/
def Obligations.GuestChangesNoCounterState : Prop :=
  ∀ (i : Instr) (s t : State), s.mode = .vs ∨ s.mode = .vu → exec i s = .next t →
    t.ctr = s.ctr ∧ t.ccfg = s.ccfg ∧ t.mcountinhibit = s.mcountinhibit ∧ t.siselect = s.siselect

/-- R120, R123: an M-mode access to the half of `menvcfg` that holds CDE reads and writes it like any read-write bit when
Smcdeleg is implemented, and leaves it zero without an exception when it is not; a write that changes none of the other
bits leaves them all, and the CSRs beside it stand. On a 32-bit hart an access to 0x30A reaches bits 31:0 only and leaves
CDE (10_state.md R25). From every other mode the access raises an illegal instruction exception. -/
def Obligations.CdeIsWrittenInMachineMode : Prop :=
  ∀ (i : Instr) (s : State) (h : Half), names i (.menvcfg h) →
    (s.mode ≠ .m → Raises .illegal i s) ∧
    (s.priv = .m → s.virt = false → s.pcInRange → (h = .low ↔ s.cfg.xlen = .rv64) →
      let b := match h with | .low => 60 | .high => 28
      let old := (Target.menvcfg h).read s
      ∃ t, Completes i s t ∧ old.getLsbD b = s.cde ∧ (t.reg i.rd = if i.rd = 0 then 0 else old) ∧
        (t.cde = if wantsWrite i then s.cfg.hasSmcdeleg && (writtenValue i s old).getLsbD b else s.cde) ∧
        ((∀ j, j < xlenBits s.cfg.xlen → j ≠ b → (writtenValue i s old).getLsbD j = old.getLsbD j) →
          ∀ j, j < 64 → j ≠ 60 → t.menvcfg.getLsbD j = s.menvcfg.getLsbD j) ∧
        sameCsrs { s with menvcfg := t.menvcfg } t) ∧
    (s.priv = .m → s.virt = false → s.pcInRange → h = .low → s.cfg.xlen = .rv32 →
      ∃ t, Completes i s t ∧ (t.reg i.rd = if i.rd = 0 then 0 else (s.menvcfg.extractLsb' 0 32).setWidth 64) ∧
        t.cde = s.cde ∧ (∀ j, 32 ≤ j → j < 64 → j ≠ 60 → t.menvcfg.getLsbD j = s.menvcfg.getLsbD j) ∧
        sameCsrs { s with menvcfg := t.menvcfg } t)

/-! ## The other registers -/

/-- 40_csr_instructions.md R113: in M-mode the machine-level numbers reach the counters and configuration registers
themselves, whatever CDE and `mcounteren` are: every bit is read, MINH included, and a write leaves the legalised value
of the register with the half written replaced, MINH included. -/
def Obligations.MachineNumbersReachTheCounters : Prop :=
  ∀ (i : Instr) (s : State) (j : CounterIx) (h : Half) (v : Word), s.priv = .m → s.virt = false → s.pcInRange →
    let ctr := s.counter j
    let cfg := s.counterCfg j
    (names i (.counter j h) → (h = .high → s.cfg.xlen = .rv32) →
      Completes i s (afterAccess i (.counter j h) s) ∧
      (Target.counter j h).read s = readHalf s.cfg.xlen h ctr ∧
      (Target.counter j h).write v s = s.setCounter j
        ((writeHalf s.cfg.xlen h ctr v &&& s.cfg.counterWmask.get j) ||| (ctr &&& ~~~s.cfg.counterWmask.get j))) ∧
    (names i (.config j h) → s.csrExists (.config j h) = true →
      Completes i s (afterAccess i (.config j h false) s) ∧
      (Target.config j h false).read s = readHalf s.cfg.xlen h cfg ∧
      (Target.config j h false).write v s = s.setCounterCfg j (cfgLegal s.cfg j cfg (writeHalf s.cfg.xlen h cfg v)) ∧
      (∀ m, s.cfg.cfgLegal.get j = .mask m → (h = .low ↔ s.cfg.xlen = .rv64) →
        (((Target.config j h false).write v s).counterCfg j).getLsbD 62 =
          if m.getLsbD 62 then v.getLsbD (if h = .low then 62 else 30) else cfg.getLsbD 62))

/-- 10_state.md R26, R27, R41, 40_csr_instructions.md R113: a write of a counter-enable register or of `mcountinhibit`
reaches the writable bits and leaves the others, the value read is the 32-bit register zero-extended, and no other CSR
changes. The writable bits of `scounteren` and `hcounteren` are the model's own parameters (log entry 2). -/
def Obligations.EnableRegistersAreMaskedWrites : Prop :=
  ∀ (i : Instr) (s : State), s.virt = false → s.pcInRange →
    let written := fun (wmask old new : Bits32) => ∀ j, j < 32 → new.getLsbD j =
      if wantsWrite i && wmask.getLsbD j then (writtenValue i s (old.setWidth 64)).getLsbD j else old.getLsbD j
    let reads := fun (old : Bits32) (t : State) => t.reg i.rd = if i.rd = 0 then 0 else old.setWidth 64
    (names i .mcounteren → s.priv = .m → ∃ t, Completes i s t ∧ reads s.mcounteren t ∧
      written s.cfg.mcounterenWmask s.mcounteren t.mcounteren ∧ sameCsrs { s with mcounteren := t.mcounteren } t) ∧
    (names i .mcountinhibit → s.priv = .m → ∃ t, Completes i s t ∧ reads s.mcountinhibit t ∧
      written s.cfg.mcountinhibitWmask s.mcountinhibit t.mcountinhibit ∧
      sameCsrs { s with mcountinhibit := t.mcountinhibit } t) ∧
    (names i .scounteren → s.priv ≠ .u → s.cfg.hasSMode = true → ∃ t, Completes i s t ∧ reads s.scounteren t ∧
      written s.cfg.scounterenWmask s.scounteren t.scounteren ∧ sameCsrs { s with scounteren := t.scounteren } t) ∧
    (names i .hcounteren → s.priv ≠ .u → s.cfg.hasH = true → ∃ t, Completes i s t ∧ reads s.hcounteren t ∧
      written s.cfg.hcounterenWmask s.hcounteren t.hcounteren ∧ sameCsrs { s with hcounteren := t.hcounteren } t)

/-- 10_state.md R40: bit 60 of `mstateen0` is read and written in M-mode; bit 60 of `hstateen0`, from M or HS mode, reads
zero and is read-only while bit 60 of `mstateen0` is zero. On a 32-bit hart the bit is bit 28 of the `h` half, and an
access to 0x30C or 0x60C completes and leaves bits 63:32. -/
def Obligations.StateEnableBitsAreReadAndWritten : Prop :=
  ∀ (i : Instr) (s : State) (h : Half), s.virt = false → s.cfg.hasSmstateen = true → s.pcInRange →
    let holdsBit := h = .low ↔ s.cfg.xlen = .rv64
    let other32 := h = .low ∧ s.cfg.xlen = .rv32
    let b := match h with | .low => 60 | .high => 28
    let m := s.mstateen0.getLsbD 60
    (names i (.mstateen0 h) → s.priv = .m → holdsBit →
      let old := (Target.mstateen0 h).read s
      ∃ t, Completes i s t ∧ old.getLsbD b = m ∧
        t.mstateen0.getLsbD 60 = (if wantsWrite i then (writtenValue i s old).getLsbD b else m) ∧
        sameCsrs { s with mstateen0 := t.mstateen0 } t) ∧
    (names i (.hstateen0 h) → s.priv ≠ .u → s.cfg.hasH = true → holdsBit →
      let old := (Target.hstateen0 h).read s
      ∃ t, Completes i s t ∧ old.getLsbD b = (m && s.hstateen0.getLsbD 60) ∧
        t.hstateen0.getLsbD 60 =
          (if wantsWrite i && m then (writtenValue i s old).getLsbD b else s.hstateen0.getLsbD 60) ∧
        sameCsrs { s with hstateen0 := t.hstateen0 } t) ∧
    (names i (.mstateen0 h) → s.priv = .m → other32 →
      ∃ t, Completes i s t ∧ (∀ j, 32 ≤ j → j < 64 → t.mstateen0.getLsbD j = s.mstateen0.getLsbD j) ∧
        sameCsrs { s with mstateen0 := t.mstateen0 } t) ∧
    (names i (.hstateen0 h) → s.priv ≠ .u → s.cfg.hasH = true → other32 →
      ∃ t, Completes i s t ∧ (∀ j, 32 ≤ j → j < 64 → t.hstateen0.getLsbD j = s.hstateen0.getLsbD j) ∧
        sameCsrs { s with hstateen0 := t.hstateen0 } t)

/-- 60_exceptions.md R220: the outcome of an access to a user-level counter view, by mode and by the three enable
registers; delegation plays no part. The U-mode read asks `scounteren`, so it is stated for a hart with S-mode. -/
def Obligations.UserCounterViewOutcomes : Prop :=
  ∀ (i : Instr) (s : State) (j : CounterIx) (h : Half), names i (.userCounter j h) →
    s.csrExists (.userCounter j h) = true →
    let m := s.mcounteren.getLsbD j.val
    let hc := s.hcounteren.getLsbD j.val
    let sc := s.scounteren.getLsbD j.val
    let reads := s.pcInRange →
      Completes i s { s.setReg i.rd (readHalf s.cfg.xlen h (s.counter j)) with pc := s.pc + 4 }
    (wantsWrite i = true → Raises .illegal i s) ∧
    (wantsWrite i = false →
      (s.mode = .m → reads) ∧
      (s.mode = .s → if m then reads else Raises .illegal i s) ∧
      (s.mode = .u → s.cfg.hasSMode = true → if m && sc then reads else Raises .illegal i s) ∧
      (s.mode = .vs → if !m then Raises .illegal i s else if hc then reads else Raises .virtual i s) ∧
      (s.mode = .vu → if !m then Raises .illegal i s else if hc && sc then reads else Raises .virtual i s))

/-- 10_state.md R23, 60_exceptions.md R220: on a hart without S-mode there is no `scounteren`, and `mcounteren` alone
decides a read of a user-level counter view from U-mode. That is the model's choice (log entry 18). -/
def Obligations.UserCounterViewWithoutSupervisor : Prop :=
  ∀ (i : Instr) (s : State) (j : CounterIx) (h : Half), names i (.userCounter j h) →
    s.csrExists (.userCounter j h) = true → s.cfg.hasSMode = false → s.mode = .u → s.pcInRange →
    if s.mcounteren.getLsbD j.val = true ∧ wantsWrite i = false
    then Completes i s { s.setReg i.rd (readHalf s.cfg.xlen h (s.counter j)) with pc := s.pc + 4 }
    else Raises .illegal i s

/-! ## The LCOFI bits (45_lcofi.md) -/

/-- R185: with Smcdeleg, Sscofpmf and Smaia a write of bit 13 of `mvien` or `mvip` from M-mode is held and read back,
whatever CDE is; from every other mode the access raises an illegal instruction exception. -/
def Obligations.MachineLcofiBitsAreHeld : Prop :=
  ∀ (i : Instr) (s : State), s.cfg.hasSmcdeleg = true → s.cfg.hasSscofpmf = true → s.cfg.hasSmaia = true →
    (names i .mvien ∨ names i .mvip → s.mode ≠ .m → Raises .illegal i s) ∧
    (∀ tgt : Target, (names i .mvien ∧ tgt = .mvien) ∨ (names i .mvip ∧ tgt = .mvip) →
      s.priv = .m → s.virt = false → s.pcInRange →
      ∃ t, Completes i s t ∧ (tgt.read t).getLsbD 13 =
        if wantsWrite i then (writtenValue i s (tgt.read s)).getLsbD 13 else (tgt.read s).getLsbD 13)

/-- R186: with Smcdeleg, Sscofpmf, Smaia, Ssaia and the hypervisor extension a write of bit 13 of `hvien` or `hvip` from M
or HS mode is held and read back, whatever CDE is; from VS or VU mode the access raises a virtual instruction exception,
from U-mode an illegal one. -/
def Obligations.HypervisorLcofiBitsAreHeld : Prop :=
  ∀ (i : Instr) (s : State), s.cfg.hasSmcdeleg = true → s.cfg.hasSscofpmf = true → s.cfg.hasSmaia = true →
    s.cfg.hasSsaia = true → s.cfg.hasH = true →
    (names i .hvien ∨ names i .hvip →
      (s.mode = .u → Raises .illegal i s) ∧ (s.mode = .vs ∨ s.mode = .vu → Raises .virtual i s)) ∧
    (∀ tgt : Target, (names i .hvien ∧ tgt = .hvien) ∨ (names i .hvip ∧ tgt = .hvip) →
      s.virt = false → s.priv ≠ .u → s.pcInRange →
      ∃ t, Completes i s t ∧ (tgt.read t).getLsbD 13 =
        if wantsWrite i then (writtenValue i s (tgt.read s)).getLsbD 13 else (tgt.read s).getLsbD 13)

/-- R188: bit 13 of `mideleg` and of `hideleg` holds what is written when its parameter says it is writable, and is
read-only zero when it does not. -/
def Obligations.OptionalDelegationBits : Prop :=
  ∀ (i : Instr) (s : State), s.virt = false → s.pcInRange →
    (names i .mideleg → s.priv = .m → s.cfg.hasSMode = true →
      ∃ t, Completes i s t ∧ (t.midelegLcofi = if wantsWrite i
        then s.cfg.mideleg13Writable && (writtenValue i s (Target.mideleg.read s)).getLsbD 13 else s.midelegLcofi) ∧
        (s.cfg.mideleg13Writable = false → (Target.mideleg.read t).getLsbD 13 = false)) ∧
    (names i .hideleg → s.priv ≠ .u → s.cfg.hasH = true →
      ∃ t, Completes i s t ∧ (t.hidelegLcofi = if wantsWrite i
        then s.cfg.hideleg13Writable && (writtenValue i s (Target.hideleg.read s)).getLsbD 13 else s.hidelegLcofi) ∧
        (s.cfg.hideleg13Writable = false → (Target.hideleg.read t).getLsbD 13 = false))

/-- R189: bit 13 of `sip` and of `sie`, read and written from M or S mode, under the default relation: with `mideleg[13]`
= 1 the bit of `mip` and of `mie`; with `mideleg[13]` = 0 and `mvien[13]` = 1 the bit of `mvip` and a bit of its own;
with both 0 read-only zero. That a written 1 sets the pending bit shown, where the spec gives the clearing only, is the
model's choice (log entry 19). -/
def Obligations.SupervisorLcofiViews : Prop :=
  ∀ (i : Instr) (s : State), hasDefaultViews s.cfg = true → s.virt = false → s.priv ≠ .u → s.cfg.hasSMode = true →
    s.pcInRange →
    (names i .sip →
      let t := afterAccess i .sip s
      let new := (writtenValue i s (Target.sip.read s)).getLsbD 13
      Completes i s t ∧
      ((Target.sip.read s).getLsbD 13 = if s.midelegLcofi then s.mip.getLsbD 13 else s.mvienLcofi && s.mvipLcofi) ∧
      (wantsWrite i = true →
        (t.mip.getLsbD 13 = if s.midelegLcofi then new else s.mip.getLsbD 13) ∧
        (t.mvipLcofi = if !s.midelegLcofi && s.mvienLcofi then new else s.mvipLcofi))) ∧
    (names i .sie →
      let t := afterAccess i .sie s
      let new := (writtenValue i s (Target.sie.read s)).getLsbD 13
      Completes i s t ∧
      ((Target.sie.read s).getLsbD 13 = if s.midelegLcofi then s.mie.getLsbD 13 else s.mvienLcofi && s.sie.getLsbD 13) ∧
      (wantsWrite i = true →
        (t.mie.getLsbD 13 = if s.midelegLcofi then new else s.mie.getLsbD 13) ∧
        (t.sie.getLsbD 13 = if !s.midelegLcofi && s.mvienLcofi then new else s.sie.getLsbD 13)))

/-- R187, R190, R191: `vsie` and `vsip`, reached from VS-mode through the numbers of `sie` and `sip` and from M or HS
mode through their own, under the default relation. Bit 13 of `vsip` shows `sip[13]` with `hideleg[13]` = 1, `hvip[13]`
with `hideleg[13]` = 0 and `hvien[13]` = 1, else zero, and a write reaches the bit shown: so clearing it clears
`hvip[13]`, or `mip[13]` where LCOFIs are delegated all the way. Bit 13 of `vsie` is a writable bit of its own with
`hideleg[13]` = 0 and `hvien[13]` = 1. Four points are the model's: that the two bits exist where the condition of R186
does not hold (log entry 11), that `vsie[13]` shows `sie[13]` with `hideleg[13]` = 1 (log entry 11), that with
`hideleg[13]` = 1 and `mideleg[13]` = 0 the write goes where `sip[13]` goes, to `mvip[13]` (log entry 11), and that a
written 1 sets the pending bit shown (log entry 19). -/
def Obligations.GuestAcknowledgesItsLcofi : Prop :=
  ∀ (i : Instr) (s : State), hasDefaultViews s.cfg = true → s.cfg.hasH = true → s.cfg.hasSMode = true → s.pcInRange →
    let own := !s.hidelegLcofi && s.hvienLcofi
    let toMip := s.hidelegLcofi && s.midelegLcofi
    let toMvip := s.hidelegLcofi && !s.midelegLcofi && s.mvienLcofi
    ((s.mode = .vs ∧ i.csrNum = 0x104) ∨ (s.virt = false ∧ s.priv ≠ .u ∧ i.csrNum = 0x204) →
      let t := afterAccess i .vsie s
      let new := (writtenValue i s (Target.vsie.read s)).getLsbD 13
      Completes i s t ∧
      ((Target.vsie.read s).getLsbD 13 =
        if s.hidelegLcofi then s.sieLcofi else (s.hvienLcofi && s.vsie.getLsbD 13)) ∧
      (wantsWrite i = true →
        (t.vsie.getLsbD 13 = if own then new else s.vsie.getLsbD 13) ∧
        (t.mie.getLsbD 13 = if toMip then new else s.mie.getLsbD 13) ∧
        (t.sie.getLsbD 13 = if toMvip then new else s.sie.getLsbD 13))) ∧
    ((s.mode = .vs ∧ i.csrNum = 0x144) ∨ (s.virt = false ∧ s.priv ≠ .u ∧ i.csrNum = 0x244) →
      let t := afterAccess i .vsip s
      let new := (writtenValue i s (Target.vsip.read s)).getLsbD 13
      Completes i s t ∧
      ((Target.vsip.read s).getLsbD 13 =
        if s.hidelegLcofi then s.sipLcofi else (s.hvienLcofi && s.hvipLcofi)) ∧
      (wantsWrite i = true →
        (t.hvipLcofi = if own then new else s.hvipLcofi) ∧
        (t.mip.getLsbD 13 = if toMip then new else s.mip.getLsbD 13) ∧
        (t.mvipLcofi = if toMvip then new else s.mvipLcofi)))

/-- 10_state.md R47, R193: bit 13 of `mip` and of `mie`, accessed from M-mode, is a storage bit that holds what is
written, whatever `AiaEnv` is; and where no relation between the bits is assumed, so is bit 13 of `sie`, `sip`, `vsie`
and `vsip`, each reached from every mode that may, and no other register changes. That software can set `mip[13]`, as
well as clear it, is the model's choice (log entry 19), and so is that `sie[13]` and `sip[13]`, which R193 does not
count among its storage bits, are storage there too, and that bit 13 of `vsie` and `vsip` exists where the condition of
R186 does not hold (log entry 24). -/
def Obligations.PendingAndEnableBitsAreHeld : Prop :=
  ∀ (i : Instr) (s : State) (tgt : Target) (bit : State → Bool), s.pcInRange →
    let free := hasDefaultViews s.cfg = false
    let above := s.virt = false ∧ s.priv ≠ .u
    ((i.csrNum = 0x344 ∧ s.mode = .m ∧ tgt = .mip ∧ bit = fun t => t.mip.getLsbD 13) ∨
      (i.csrNum = 0x304 ∧ s.mode = .m ∧ tgt = .mie ∧ bit = fun t => t.mie.getLsbD 13) ∨
      (i.csrNum = 0x144 ∧ free ∧ above ∧ s.cfg.hasSMode = true ∧ tgt = .sip ∧ bit = fun t => t.sip.getLsbD 13) ∨
      (i.csrNum = 0x104 ∧ free ∧ above ∧ s.cfg.hasSMode = true ∧ tgt = .sie ∧ bit = fun t => t.sie.getLsbD 13) ∨
      (((i.csrNum = 0x144 ∧ s.mode = .vs ∧ s.cfg.hasSMode = true) ∨ (i.csrNum = 0x244 ∧ above)) ∧ free ∧
        s.cfg.hasH = true ∧ tgt = .vsip ∧ bit = fun t => t.vsip.getLsbD 13) ∨
      (((i.csrNum = 0x104 ∧ s.mode = .vs ∧ s.cfg.hasSMode = true) ∨ (i.csrNum = 0x204 ∧ above)) ∧ free ∧
        s.cfg.hasH = true ∧ tgt = .vsie ∧ bit = fun t => t.vsie.getLsbD 13)) →
    let t := afterAccess i tgt s
    Completes i s t ∧ (tgt.read s).getLsbD 13 = bit s ∧
    bit t = (if wantsWrite i then (writtenValue i s (tgt.read s)).getLsbD 13 else bit s) ∧
    (∀ j : CounterIx, t.counter j = s.counter j ∧ t.counterCfg j = s.counterCfg j) ∧
    (tgt ≠ .mip → t.mip = s.mip) ∧ (tgt ≠ .mie → t.mie = s.mie) ∧ (tgt ≠ .sip → t.sip = s.sip) ∧
    (tgt ≠ .sie → t.sie = s.sie) ∧ (tgt ≠ .vsip → t.vsip = s.vsip) ∧ (tgt ≠ .vsie → t.vsie = s.vsie) ∧
    t.mvip = s.mvip ∧ t.hvip = s.hvip ∧ t.mvien = s.mvien ∧ t.hvien = s.hvien ∧ t.mideleg = s.mideleg ∧
    t.hideleg = s.hideleg

/-! ## Traps (60_exceptions.md) -/

/-- R212, R202: what taking an exception does under the default `TrapEntry`: the mode that takes it, the registers it
saves into, the status, the mode and the pc it leaves. Each case names every field that changes: no other trap register,
no general register, no CSR and no byte of memory does. That a vector register's two low bits are no part of its BASE is
the model's (log entry 13), and so are that nothing is delegated on a hart without S-mode and that entry to HS-mode
clears `hstatus.GVA` for V = 0 too (log entry 16). Under a free `TrapEntry` those registers, the mode and the pc take
unnamed values, the mode one that the hart has and the pc an aligned one, and nothing else changes: that too is the
model's (log entry 25). -/
def Obligations.TrapEntrySequence : Prop :=
  ∀ (e : Exc) (word : BitVec 32) (s : State),
    let cause : Word := match e with | .illegal => 2 | .virtual => 22
    let tval : Word := match s.cfg.tvalPolicy with | .zero => 0 | .instructionBits => word.setWidth 64
    let toHs := s.cfg.hasSMode = true ∧ s.priv ≠ .m ∧ s.medeleg.getLsbD cause.toNat = true
    let toVs := toHs ∧ s.virt = true ∧ e ≠ .virtual ∧ s.hedeleg.getLsbD cause.toNat = true
    let standard := s.cfg.trapEntry = .standard
    (standard → ¬ toHs → takeException e word s =
      { s with
        mepc := s.pc, mcause := cause, mtval := tval, mtval2 := 0, mtinst := 0
        mstatus := { mpie := s.mstatus.mie, mie := false, mpp := s.priv, mpv := s.virt, gva := false }
        priv := .m, virt := false, pc := trunc s.cfg.xlen (vectorBase s.mtvec) }) ∧
    (standard → toHs → ¬ toVs → takeException e word s =
      { s with
        sepc := s.pc, scause := cause, stval := tval, htval := 0, htinst := 0
        sstatus := { spie := s.sstatus.sie, sie := false, spp := decide (s.priv = .s) }
        hstatus :=
          { spv := s.virt, spvp := if s.virt = true then decide (s.priv = .s) else s.hstatus.spvp, gva := false }
        priv := .s, virt := false, pc := trunc s.cfg.xlen (vectorBase s.stvec) }) ∧
    (standard → toVs → takeException e word s =
      { s with
        vsepc := s.pc, vscause := cause, vstval := tval
        vsstatus := { spie := s.vsstatus.sie, sie := false, spp := decide (s.priv = .s) }
        priv := .s, virt := true, pc := trunc s.cfg.xlen (vectorBase s.vstvec) }) ∧
    (¬ standard →
      let t := takeException e word s
      t = { s with
        mepc := t.mepc, mcause := t.mcause, mtval := t.mtval, mtval2 := t.mtval2, mtinst := t.mtinst
        mstatus := t.mstatus
        sepc := t.sepc, scause := t.scause, stval := t.stval, htval := t.htval, htinst := t.htinst
        sstatus := t.sstatus, hstatus := t.hstatus
        vsepc := t.vsepc, vscause := t.vscause, vstval := t.vstval, vsstatus := t.vsstatus
        priv := t.priv, virt := t.virt, pc := t.pc } ∧
      t.modeWf ∧ t.pcWf)

/-- R213: returning from the mode that took a trap restores the mode, the interrupt enable and the pc the trap saved. It
holds under the default `TrapEntry`. The operation is the model's reading of R213: no instruction of the spec performs
it (log entry 15). -/
def Obligations.ReturnRestoresWhatATrapSaved : Prop :=
  ∀ (t : TrapTarget) (cause tval : Word) (c : Option Nat) (s : State), s.modeWf → (t ≠ .m → s.priv ≠ .m) →
    (t = .vs → s.virt = true) → s.cfg.trapEntry = .standard →
    let r := returnFromTrap t (enterTrap t cause tval c s)
    r.priv = s.priv ∧ r.virt = s.virt ∧ r.pc = s.pc ∧ r.mode = s.mode ∧ r.mstatus.mie = s.mstatus.mie ∧
    r.sstatus.sie = s.sstatus.sie ∧ r.vsstatus.sie = s.vsstatus.sie ∧ r.x = s.x ∧ sameCsrs s r

/-- R218, R115: a step changes the mode only by taking a trap: the exception of the instruction at `pc`, or an LCOFI. -/
def Obligations.ModeChangesOnlyByTrap : Prop :=
  ∀ s t : State, step s = .next t →
    (t.priv = s.priv ∧ t.virt = s.virt) ∨
    (∃ l, s.lcofiTaken = some l ∧ t = environment s.noRetirement (takeLcofi l s)) ∨
    (∃ i e, s.fetch = .instr i ∧ Raises e i s ∧ t = environment (s.retirement i) (takeException e (encode i) s))

/-- R206, R207, R212: under the prompt `AiaEnv` and the default `TrapEntry` a pending and enabled LCOFI is taken before
the instruction starts: the mode that takes it saves the address of that instruction, the cause 13 with the interrupt
flag, the trap value 0 and the status, and control goes to the vector base, or under the vectored mode to BASE + 4 * 13.
Each case names every field that changes: no other trap register, no general register, no CSR and no byte of memory
does, before the environment acts. The flag's place, the trap value 0, the enabling conditions, and that an interrupt
takes the entry sequence of R212 are the model's (log entry 12), and so are the layout of a vector register (log entry
13) and that entry to HS-mode clears `hstatus.GVA` for V = 0 too (log entry 16). -/
def Obligations.PendingLcofiIsTakenFirst : Prop :=
  ∀ (s : State) (l : TrapTarget), s.cfg.aiaEnv = .prompt → s.cfg.trapEntry = .standard → s.pendingLcofi = some l →
    let cause : Word := match s.cfg.xlen with | .rv32 => 0x8000000D | .rv64 => 0x800000000000000D
    let entry := fun tvec : Word =>
      trunc s.cfg.xlen (if tvec &&& 3 = 1 then (tvec &&& ~~~3) + 52 else tvec &&& ~~~3)
    (l = .m → step s = .next (environment s.noRetirement
      { s with
        mepc := s.pc, mcause := cause, mtval := 0, mtval2 := 0, mtinst := 0
        mstatus := { mpie := s.mstatus.mie, mie := false, mpp := s.priv, mpv := s.virt, gva := false }
        priv := .m, virt := false, pc := entry s.mtvec })) ∧
    (l = .hs → step s = .next (environment s.noRetirement
      { s with
        sepc := s.pc, scause := cause, stval := 0, htval := 0, htinst := 0
        sstatus := { spie := s.sstatus.sie, sie := false, spp := decide (s.priv = .s) }
        hstatus :=
          { spv := s.virt, spvp := if s.virt = true then decide (s.priv = .s) else s.hstatus.spvp, gva := false }
        priv := .s, virt := false, pc := entry s.stvec })) ∧
    (l = .vs → step s = .next (environment s.noRetirement
      { s with
        vsepc := s.pc, vscause := cause, vstval := 0
        vsstatus := { spie := s.vsstatus.sie, sie := false, spp := decide (s.priv = .s) }
        priv := .s, virt := true, pc := entry s.vstvec }))

/-- 45_lcofi.md R188, R189, 60_exceptions.md R208: from a mode below S-mode, an LCOFI pending and enabled in `mip` and
`mie` goes to M-mode with `mideleg[13]` = 0, to HS-mode with `mideleg[13]` = 1 and `hideleg[13]` = 0, and from VU-mode
to VS-mode with both set; a virtual LCOFI set by `mvien[13]`, `mvip[13]` goes to HS-mode, one set by `hvien[13]`,
`hvip[13]` to VS-mode, where the supervisor enable of each lets it in. It holds under the default relation of the bits,
and the enabling conditions are the model's (log entries 11 and 12). -/
def Obligations.LcofiRouting : Prop :=
  ∀ s : State, hasDefaultViews s.cfg = true → s.cfg.hasSMode = true → s.priv = .u →
    (s.mip.getLsbD 13 = true → s.mie.getLsbD 13 = true →
      (s.midelegLcofi = false → s.pendingLcofi = some .m) ∧
      (s.midelegLcofi = true → s.hidelegLcofi = false → s.pendingLcofi = some .hs) ∧
      (s.midelegLcofi = true → s.hidelegLcofi = true → s.virt = true → s.cfg.hasH = true →
        s.pendingLcofi = some .vs)) ∧
    (s.mip.getLsbD 13 = false → s.midelegLcofi = false → s.hidelegLcofi = false → s.mvienLcofi = true →
      s.mvipLcofi = true → s.sie.getLsbD 13 = true → s.pendingLcofi = some .hs) ∧
    (s.mip.getLsbD 13 = false → s.mvipLcofi = false → s.hidelegLcofi = false → s.virt = true → s.cfg.hasH = true →
      s.hvienLcofi = true → s.hvipLcofi = true → s.vsie.getLsbD 13 = true → s.pendingLcofi = some .vs)

/-! ## The counters (70_reset_and_hazards.md R238) -/

/-- R238, 45_lcofi.md R192: what the environment does after a step: some `d` for each counter, zero for one that is
inhibited, filtered in the current mode by its MINH, SINH, UINH, VSINH or VUINH bit (10_state.md R30, R31) or hard-wired
to zero; a wrap with OF clear sets OF and pends an LCOFI, one with
OF set does nothing more; nothing else of the hart changes. `minstret` advances by 1 for an instruction that retires and
did not write it; that its restart by that very instruction may go uncounted is the model's (log entry 9). The last
clause, on `AiaEnv`, is the model's choice, which R193 leaves open (log entry 24): it acts before `CounterEnv`, by default
it changes nothing, and where no relation between the LCOFI bits is assumed it may change bit 13 of the pending, enable
and view registers, and nothing else, so that `mvien`, `hvien`, `mideleg` and `hideleg` stand. -/
def Obligations.CounterEnvContract : Prop :=
  ∀ (r : Retirement) (s : State), ∃ d : CounterIx → Nat,
    let t := counterEnv r s
    let wraps := fun i : CounterIx => 3 ≤ i.val ∧ s.cfg.hasSscofpmf = true ∧ (s.counterCfg i).getLsbD 63 = false ∧
      2 ^ 64 ≤ (s.counter i).toNat + d i
    let inh := match s.mode with | .m => 62 | .s => 61 | .u => 60 | .vs => 59 | .vu => 58
    let filtered := fun i : CounterIx =>
      ((3 ≤ i.val ∧ s.cfg.hasSscofpmf = true) ∨ ((i = 0 ∨ i = 2) ∧ s.cfg.hasSmcntrpmf = true)) ∧
      (s.counterCfg i).getLsbD inh = true
    (∀ i : CounterIx, t.counter i = s.counter i + BitVec.ofNat 64 (d i)) ∧
    (∀ i : CounterIx, i ≠ 1 →
      (s.mcountinhibit.getLsbD i.val = true → d i = 0) ∧ (filtered i → d i = 0) ∧
      (s.cfg.counterWmask.get i = 0 → d i = 0)) ∧
    (r.retired = false ∨ r.wroteInstret = true → d 2 = 0) ∧
    (r.retired = true → r.wroteInstret = false → r.instretRan = true →
      s.mcountinhibit.getLsbD 2 = false → ¬ filtered 2 → s.cfg.counterWmask.get 2 ≠ 0 → d 2 = 1) ∧
    (∀ i : CounterIx, (wraps i → (t.counterCfg i).getLsbD 63 = true) ∧ (¬ wraps i → t.counterCfg i = s.counterCfg i) ∧
      ∀ j, j < 63 → (t.counterCfg i).getLsbD j = (s.counterCfg i).getLsbD j) ∧
    ((∃ i, wraps i) → t.mip.getLsbD 13 = true) ∧ ((¬ ∃ i, wraps i) → t.mip = s.mip) ∧
    (∀ j, j < 64 → j ≠ 13 → t.mip.getLsbD j = s.mip.getLsbD j) ∧
    sameOutside { s with draws := t.draws } t ∧ sameCsrs { s with ctr := t.ctr, ccfg := t.ccfg, mip := t.mip } t ∧
    t.x = s.x ∧ t.pc = s.pc ∧
    ∃ u : State, environment r s = counterEnv r u ∧ (hasDefaultViews s.cfg = true → u = s) ∧
      u = { s with
        mip := u.mip, mie := u.mie, sip := u.sip, sie := u.sie, mvip := u.mvip, hvip := u.hvip, vsip := u.vsip
        vsie := u.vsie } ∧
      ∀ j, j < 64 → j ≠ 13 → u.mip.getLsbD j = s.mip.getLsbD j ∧ u.mie.getLsbD j = s.mie.getLsbD j ∧
        u.sip.getLsbD j = s.sip.getLsbD j ∧ u.sie.getLsbD j = s.sie.getLsbD j ∧
        u.mvip.getLsbD j = s.mvip.getLsbD j ∧ u.hvip.getLsbD j = s.hvip.getLsbD j ∧
        u.vsip.getLsbD j = s.vsip.getLsbD j ∧ u.vsie.getLsbD j = s.vsie.getLsbD j

/-- R238, 42_indirect_counter_access.md R153: over a step that completes an instruction, `minstret` advances by 1 when
it is running before and after and the instruction does not write it; an instruction that writes it adds nothing of its
own; one that raises an exception does not retire. -/
def Obligations.InstretCountsRetiredInstructions : Prop :=
  ∀ (s t : State) (i : Instr), s.lcofiTaken = none → s.fetch = .instr i → step s = .next t →
    (∀ e, s.access i.csrNum (wantsWrite i) = .raise e → t.counter 2 = s.counter 2) ∧
    (∀ tgt, s.access i.csrNum (wantsWrite i) = .reach tgt →
      ((wantsWrite i = true ∧ ∃ h, tgt = .counter 2 h) → t.counter 2 = (afterAccess i tgt s).counter 2) ∧
      (¬ (wantsWrite i = true ∧ ∃ h, tgt = .counter 2 h) → s.counterRuns 2 = true →
        (afterAccess i tgt s).counterRuns 2 = true → t.counter 2 = s.counter 2 + 1))
end

