-- ==== Sys2Proof/Laws/Bits.lean ====
section
/-! SUPPORT. The small lemmas of the bit-field helpers of `Machine/CsrMap.lean`. -/

namespace Sys2Proof.Machine

theorem bitsOf_getLsbD (f : Nat → Bool) (n i : Nat) : (bitsOf f n).getLsbD i = (decide (i < n) && f i) := by
  induction n with
  | zero => simp [bitsOf]
  | succ n ih =>
    simp only [bitsOf, BitVec.getLsbD_cons, ih]
    by_cases h : i = n
    · simp [h]
    · have : (i < n + 1) = (i < n) := by simp only [eq_iff_iff]; omega
      simp [h, this]

theorem withBit_getLsbD (w : Word) (i j : Nat) (b : Bool) (hj : j < 64) :
    (withBit w i b).getLsbD j = if j = i then b else w.getLsbD j := by
  unfold withBit
  by_cases hb : b = true
  · simp [hb, hj]
    by_cases h : j = i
    · simp [h]
    · by_cases h2 : j < i
      · simp [h, h2]
      · have : j - i ≠ 0 := by omega
        simp [h, h2, this]
  · simp [hb, hj]
    by_cases h : j = i
    · simp [h]
    · by_cases h2 : j < i
      · simp [h, h2]
      · have : j - i ≠ 0 := by omega
        simp [h, h2, this]

theorem mask32_getLsbD (i : Nat) : (0xFFFFFFFF : Word).getLsbD i = decide (i < 32) := by
  by_cases h : i < 64
  · revert i; decide
  · simp only [BitVec.getLsbD_of_ge _ _ (Nat.le_of_not_lt h)]
    simp; omega

theorem maskHigh_getLsbD (i : Nat) : (0xFFFFFFFF00000000 : Word).getLsbD i = (decide (32 ≤ i) && decide (i < 64)) := by
  by_cases h : i < 64
  · revert i; decide
  · simp [BitVec.getLsbD_of_ge _ _ (Nat.le_of_not_lt h), h]

theorem trunc_getLsbD (x : Xlen) (w : Word) (i : Nat) :
    (trunc x w).getLsbD i = (decide (i < xlenBits x) && w.getLsbD i) := by
  cases x with
  | rv32 => rw [trunc, BitVec.getLsbD_and, mask32_getLsbD, xlenBits, Bool.and_comm]
  | rv64 =>
    by_cases h : i < 64
    · simp [trunc, xlenBits, h]
    · simp [trunc, xlenBits, BitVec.getLsbD_of_ge w i (Nat.le_of_not_lt h)]

@[simp] theorem trunc_trunc (x : Xlen) (w : Word) : trunc x (trunc x w) = trunc x w := by
  apply BitVec.eq_of_getLsbD_eq
  intro i _
  simp only [trunc_getLsbD]
  cases decide (i < xlenBits x) <;> rfl

@[simp] theorem trunc_zero (x : Xlen) : trunc x 0 = 0 := by cases x <;> rfl

/-- A value below 2^`XLEN` is an `XLEN`-bit value. -/
theorem trunc_of_lt (x : Xlen) (w : Word) (h : w.toNat < 2 ^ xlenBits x) : trunc x w = w := by
  cases x with
  | rv32 =>
    apply BitVec.eq_of_toNat_eq
    have hm : (0xFFFFFFFF : Word).toNat = 2 ^ 32 - 1 := rfl
    rw [trunc, BitVec.toNat_and, hm, Nat.and_two_pow_sub_one_eq_mod]
    exact Nat.mod_eq_of_lt h
  | rv64 => rfl

theorem trunc_toNat_lt (x : Xlen) (w : Word) : (trunc x w).toNat < 2 ^ xlenBits x := by
  cases x with
  | rv32 =>
    have hm : (0xFFFFFFFF : Word).toNat = 2 ^ 32 - 1 := rfl
    rw [trunc, BitVec.toNat_and, hm, Nat.and_two_pow_sub_one_eq_mod]
    exact Nat.mod_lt _ (by decide)
  | rv64 => exact w.isLt

@[simp] theorem readHalf_rv64_low (w : Word) : readHalf .rv64 .low w = w := rfl

@[simp] theorem writeHalf_rv64_low (reg v : Word) : writeHalf .rv64 .low reg v = v := rfl

theorem readHalf_rv32_low_getLsbD (w : Word) (i : Nat) :
    (readHalf .rv32 .low w).getLsbD i = (decide (i < 32) && w.getLsbD i) := by
  rw [readHalf, BitVec.getLsbD_and, mask32_getLsbD, Bool.and_comm]

theorem readHalf_high_getLsbD (x : Xlen) (w : Word) (i : Nat) :
    (readHalf x .high w).getLsbD i = w.getLsbD (32 + i) := by
  cases x <;> simp [readHalf]

theorem writeHalf_rv32_low_getLsbD (reg v : Word) (i : Nat) :
    (writeHalf .rv32 .low reg v).getLsbD i = if i < 32 then v.getLsbD i else reg.getLsbD i := by
  rw [writeHalf, BitVec.getLsbD_or, BitVec.getLsbD_and, BitVec.getLsbD_and, mask32_getLsbD, maskHigh_getLsbD]
  by_cases h : i < 32
  · simp [h, Nat.not_le.mpr h]
  · by_cases h2 : i < 64
    · simp [h, h2, Nat.le_of_not_lt h]
    · simp [h, h2, BitVec.getLsbD_of_ge reg i (Nat.le_of_not_lt h2)]

theorem writeHalf_high_getLsbD (x : Xlen) (reg v : Word) (i : Nat) (hi : i < 64) :
    (writeHalf x .high reg v).getLsbD i = if i < 32 then reg.getLsbD i else v.getLsbD (i - 32) := by
  have e : writeHalf x .high reg v = (v <<< 32) ||| (reg &&& 0xFFFFFFFF) := by cases x <;> rfl
  rw [e, BitVec.getLsbD_or, BitVec.getLsbD_and, mask32_getLsbD]
  by_cases h : i < 32
  · simp [h]
  · simp [h, hi, -BitVec.getLsbD_eq_getElem]

@[simp] theorem trunc_readHalf (x : Xlen) (h : Half) (w : Word) : trunc x (readHalf x h w) = readHalf x h w := by
  cases x with
  | rv64 => rfl
  | rv32 =>
    apply BitVec.eq_of_getLsbD_eq
    intro i _
    rw [trunc_getLsbD]
    cases h with
    | low =>
      rw [readHalf_rv32_low_getLsbD, xlenBits]
      cases decide (i < 32) <;> rfl
    | high =>
      rw [readHalf_high_getLsbD, xlenBits]
      by_cases h : i < 32
      · simp [h]
      · simp [h, BitVec.getLsbD_of_ge w (32 + i) (by omega)]

/-- Writing back the half that was read changes nothing. -/
@[simp] theorem writeHalf_readHalf (x : Xlen) (h : Half) (w : Word) : writeHalf x h w (readHalf x h w) = w := by
  apply BitVec.eq_of_getLsbD_eq
  intro i hi
  cases h with
  | high =>
    rw [writeHalf_high_getLsbD _ _ _ _ hi, readHalf_high_getLsbD]
    split
    · rfl
    · congr 1
      omega
  | low =>
    cases x with
    | rv64 => rfl
    | rv32 =>
      rw [writeHalf_rv32_low_getLsbD, readHalf_rv32_low_getLsbD]
      split <;> simp_all

/-- A register keeps its value when a bit is set to what it is. -/
theorem withBit_eq_iff (w old : Word) (i : Nat) :
    withBit w i (old.getLsbD i) = old ↔ ∀ j, j < 64 → j ≠ i → w.getLsbD j = old.getLsbD j := by
  constructor
  · intro h j hj hi
    rw [← h, withBit_getLsbD _ _ _ _ hj, if_neg hi]
  · intro h
    apply BitVec.eq_of_getLsbD_eq
    intro j hj
    rw [withBit_getLsbD _ _ _ _ hj]
    split
    · rename_i e
      rw [e]
    · exact h j hj ‹_›

@[simp] theorem trunc_setWidth (x : Xlen) (w : Bits32) : trunc x (w.setWidth 64) = w.setWidth 64 := by
  apply trunc_of_lt
  cases x <;> simp [xlenBits] <;> omega

@[simp] theorem trunc_imm (x : Xlen) (u : Uimm) : trunc x (u.setWidth 64) = u.setWidth 64 := by
  apply trunc_of_lt
  cases x <;> simp [xlenBits] <;> omega

theorem trunc_or (x : Xlen) (a b : Word) : trunc x (a ||| b) = trunc x a ||| trunc x b := by
  apply BitVec.eq_of_getLsbD_eq
  intro i _
  simp only [trunc_getLsbD, BitVec.getLsbD_or]
  cases decide (i < xlenBits x) <;> rfl

/-- An `XLEN`-bit value stays one when bits are cleared. -/
theorem trunc_and (x : Xlen) (a b : Word) (h : trunc x a = a) : trunc x (a &&& b) = a &&& b := by
  apply BitVec.eq_of_getLsbD_eq
  intro i _
  rw [trunc_getLsbD, BitVec.getLsbD_and]
  rw [← h, trunc_getLsbD]
  cases decide (i < xlenBits x) <;> rfl

end Sys2Proof.Machine
end

