-- ==== Sys2Proof/Laws/CsrMap.lean ====
section
/-! SUPPORT. The CSR address space, once for all 4096 numbers: the level and the read-only mark of the register a number
names, and which indexes the runs of counters leave out (10_state.md R23). -/

namespace Sys2Proof.Machine

/-- The "level" column of 10_state.md R23; a number that names no CSR has no row. -/
def Csr.level : Csr → Level
  | .userCounter _ _ | .absent => .user
  | .scountinhibit | .siselect | .sireg _ | .scountovf | .scounteren | .sie | .sip => .supervisor
  | .vsiselect | .vsireg _ | .vsie | .vsip | .hstateen0 _ | .hideleg | .hcounteren | .hvien | .hvip => .hypervisor
  | .mcounteren | .menvcfg _ | .mstateen0 _ | .mideleg | .mvien | .mvip | .mie | .mip | .mcountinhibit
  | .config _ _ | .counter _ _ => .machine

/-- The CSRs that 10_state.md R23 marks read-only. -/
def Csr.readOnly : Csr → Bool
  | .scountovf | .userCounter _ _ => true
  | _ => false

/-- Counter 1 has no machine-level counter and no configuration register (10_state.md R28, R33). -/
def Csr.hasIndex : Csr → Bool
  | .config i _ | .counter i _ => i != 1
  | _ => true

/-- The row of one number. -/
def rowAgrees (n : CsrNum) : Bool :=
  match Csr.ofNumber n with
  | none => true
  | some c => (c == .absent || Machine.level n == c.level) && readOnlyNumber n == c.readOnly && c.hasIndex

theorem rowAgrees_all : ∀ n : CsrNum, rowAgrees n = true := by decide +kernel

/-- What 10_state.md R23 says of the number of a CSR. -/
theorem Csr.of_number {n : CsrNum} {c : Csr} (h : Csr.ofNumber n = some c) :
    (c ≠ .absent → Machine.level n = c.level) ∧ readOnlyNumber n = c.readOnly ∧ c.hasIndex = true := by
  have := rowAgrees_all n
  simp only [rowAgrees, h, Bool.and_eq_true, Bool.or_eq_true, beq_iff_eq] at this
  exact ⟨fun hc => this.1.1.resolve_left hc, this.1.2, this.2⟩

end Sys2Proof.Machine
end

