-- ==== Sys2Proof/Laws/Encoding.lean ====
section
/-! SUPPORT. The fields of an encoded instruction, and of a word put together from its bytes. -/

namespace Sys2Proof

@[simp] theorem regOfBits_bitsOfReg (r : Reg) : regOfBits (bitsOfReg r) = r := rfl

@[simp] theorem bitsOfReg_regOfBits (b : BitVec 5) : bitsOfReg (regOfBits b) = b := rfl

/-- The five fields of a CSR instruction word (30_encoding.md R86). -/
theorem fields_of_append (c : BitVec 12) (s : BitVec 5) (f : BitVec 3) (d : BitVec 5) (o : BitVec 7) :
    (c ++ s ++ f ++ d ++ o).extractLsb' 20 12 = c ∧ (c ++ s ++ f ++ d ++ o).extractLsb' 15 5 = s ∧
    (c ++ s ++ f ++ d ++ o).extractLsb' 12 3 = f ∧ (c ++ s ++ f ++ d ++ o).extractLsb' 7 5 = d ∧
    (c ++ s ++ f ++ d ++ o).extractLsb' 0 7 = o := by
  refine ⟨?_, ?_, ?_, ?_, ?_⟩ <;> ext i hi <;>
    simp only [BitVec.getElem_extractLsb', BitVec.getLsbD_append] <;> grind

theorem encode_csr (i : Instr) : (encode i).extractLsb' 20 12 = i.csrNum :=
  (fields_of_append _ _ _ _ _).1

theorem encode_src (i : Instr) : (encode i).extractLsb' 15 5 = i.srcBits :=
  (fields_of_append _ _ _ _ _).2.1

theorem encode_funct3 (i : Instr) : (encode i).extractLsb' 12 3 = i.funct3 :=
  (fields_of_append _ _ _ _ _).2.2.1

theorem encode_rd (i : Instr) : (encode i).extractLsb' 7 5 = bitsOfReg i.rd :=
  (fields_of_append _ _ _ _ _).2.2.2.1

theorem encode_opcode (i : Instr) : (encode i).extractLsb' 0 7 = systemOpcode :=
  (fields_of_append _ _ _ _ _).2.2.2.2

/-- The bytes of a word put together again (20_memory.md R71). -/
theorem wordOfBytes_bytesOfWord (w : BitVec 32) :
    wordOfBytes (w.extractLsb' 0 8) (w.extractLsb' 8 8) (w.extractLsb' 16 8) (w.extractLsb' 24 8) = w := by
  unfold wordOfBytes
  ext i hi
  rw [← BitVec.getLsbD_eq_getElem]
  simp only [BitVec.getLsbD_append, BitVec.getLsbD_extractLsb']
  grind

end Sys2Proof
end

