-- ==== Sys2Proof/Laws/State.lean ====
section
/-! SUPPORT. The fields of the state after each named update, so that no later proof unfolds a record update. -/

namespace Sys2Proof.Machine

/-! ## `setReg` -/

@[simp] theorem State.setReg_cfg (s : State) (i : Reg) (v : Word) : (s.setReg i v).cfg = s.cfg := rfl
@[simp] theorem State.setReg_draws (s : State) (i : Reg) (v : Word) : (s.setReg i v).draws = s.draws := rfl
@[simp] theorem State.setReg_x (s : State) (i : Reg) (v : Word) :
    (s.setReg i v).x = if i = 0 then s.x else s.x.set i.val (trunc s.cfg.xlen v) i.isLt := rfl
@[simp] theorem State.setReg_pc (s : State) (i : Reg) (v : Word) : (s.setReg i v).pc = s.pc := rfl
@[simp] theorem State.setReg_priv (s : State) (i : Reg) (v : Word) : (s.setReg i v).priv = s.priv := rfl
@[simp] theorem State.setReg_virt (s : State) (i : Reg) (v : Word) : (s.setReg i v).virt = s.virt := rfl
@[simp] theorem State.setReg_mem (s : State) (i : Reg) (v : Word) : (s.setReg i v).mem = s.mem := rfl
@[simp] theorem State.setReg_menvcfg (s : State) (i : Reg) (v : Word) : (s.setReg i v).menvcfg = s.menvcfg := rfl
@[simp] theorem State.setReg_mcounteren (s : State) (i : Reg) (v : Word) : (s.setReg i v).mcounteren = s.mcounteren := rfl
@[simp] theorem State.setReg_scounteren (s : State) (i : Reg) (v : Word) : (s.setReg i v).scounteren = s.scounteren := rfl
@[simp] theorem State.setReg_hcounteren (s : State) (i : Reg) (v : Word) : (s.setReg i v).hcounteren = s.hcounteren := rfl
@[simp] theorem State.setReg_mcountinhibit (s : State) (i : Reg) (v : Word) : (s.setReg i v).mcountinhibit = s.mcountinhibit := rfl
@[simp] theorem State.setReg_ctr (s : State) (i : Reg) (v : Word) : (s.setReg i v).ctr = s.ctr := rfl
@[simp] theorem State.setReg_ccfg (s : State) (i : Reg) (v : Word) : (s.setReg i v).ccfg = s.ccfg := rfl
@[simp] theorem State.setReg_siselect (s : State) (i : Reg) (v : Word) : (s.setReg i v).siselect = s.siselect := rfl
@[simp] theorem State.setReg_vsiselect (s : State) (i : Reg) (v : Word) : (s.setReg i v).vsiselect = s.vsiselect := rfl
@[simp] theorem State.setReg_mstateen0 (s : State) (i : Reg) (v : Word) : (s.setReg i v).mstateen0 = s.mstateen0 := rfl
@[simp] theorem State.setReg_hstateen0 (s : State) (i : Reg) (v : Word) : (s.setReg i v).hstateen0 = s.hstateen0 := rfl
@[simp] theorem State.setReg_mie (s : State) (i : Reg) (v : Word) : (s.setReg i v).mie = s.mie := rfl
@[simp] theorem State.setReg_mip (s : State) (i : Reg) (v : Word) : (s.setReg i v).mip = s.mip := rfl
@[simp] theorem State.setReg_sie (s : State) (i : Reg) (v : Word) : (s.setReg i v).sie = s.sie := rfl
@[simp] theorem State.setReg_sip (s : State) (i : Reg) (v : Word) : (s.setReg i v).sip = s.sip := rfl
@[simp] theorem State.setReg_mvien (s : State) (i : Reg) (v : Word) : (s.setReg i v).mvien = s.mvien := rfl
@[simp] theorem State.setReg_mvip (s : State) (i : Reg) (v : Word) : (s.setReg i v).mvip = s.mvip := rfl
@[simp] theorem State.setReg_hvien (s : State) (i : Reg) (v : Word) : (s.setReg i v).hvien = s.hvien := rfl
@[simp] theorem State.setReg_hvip (s : State) (i : Reg) (v : Word) : (s.setReg i v).hvip = s.hvip := rfl
@[simp] theorem State.setReg_vsie (s : State) (i : Reg) (v : Word) : (s.setReg i v).vsie = s.vsie := rfl
@[simp] theorem State.setReg_vsip (s : State) (i : Reg) (v : Word) : (s.setReg i v).vsip = s.vsip := rfl
@[simp] theorem State.setReg_mideleg (s : State) (i : Reg) (v : Word) : (s.setReg i v).mideleg = s.mideleg := rfl
@[simp] theorem State.setReg_hideleg (s : State) (i : Reg) (v : Word) : (s.setReg i v).hideleg = s.hideleg := rfl
@[simp] theorem State.setReg_medeleg (s : State) (i : Reg) (v : Word) : (s.setReg i v).medeleg = s.medeleg := rfl
@[simp] theorem State.setReg_hedeleg (s : State) (i : Reg) (v : Word) : (s.setReg i v).hedeleg = s.hedeleg := rfl
@[simp] theorem State.setReg_mstatus (s : State) (i : Reg) (v : Word) : (s.setReg i v).mstatus = s.mstatus := rfl
@[simp] theorem State.setReg_mtvec (s : State) (i : Reg) (v : Word) : (s.setReg i v).mtvec = s.mtvec := rfl
@[simp] theorem State.setReg_mepc (s : State) (i : Reg) (v : Word) : (s.setReg i v).mepc = s.mepc := rfl
@[simp] theorem State.setReg_mcause (s : State) (i : Reg) (v : Word) : (s.setReg i v).mcause = s.mcause := rfl
@[simp] theorem State.setReg_mtval (s : State) (i : Reg) (v : Word) : (s.setReg i v).mtval = s.mtval := rfl
@[simp] theorem State.setReg_mtval2 (s : State) (i : Reg) (v : Word) : (s.setReg i v).mtval2 = s.mtval2 := rfl
@[simp] theorem State.setReg_mtinst (s : State) (i : Reg) (v : Word) : (s.setReg i v).mtinst = s.mtinst := rfl
@[simp] theorem State.setReg_sstatus (s : State) (i : Reg) (v : Word) : (s.setReg i v).sstatus = s.sstatus := rfl
@[simp] theorem State.setReg_hstatus (s : State) (i : Reg) (v : Word) : (s.setReg i v).hstatus = s.hstatus := rfl
@[simp] theorem State.setReg_stvec (s : State) (i : Reg) (v : Word) : (s.setReg i v).stvec = s.stvec := rfl
@[simp] theorem State.setReg_sepc (s : State) (i : Reg) (v : Word) : (s.setReg i v).sepc = s.sepc := rfl
@[simp] theorem State.setReg_scause (s : State) (i : Reg) (v : Word) : (s.setReg i v).scause = s.scause := rfl
@[simp] theorem State.setReg_stval (s : State) (i : Reg) (v : Word) : (s.setReg i v).stval = s.stval := rfl
@[simp] theorem State.setReg_htval (s : State) (i : Reg) (v : Word) : (s.setReg i v).htval = s.htval := rfl
@[simp] theorem State.setReg_htinst (s : State) (i : Reg) (v : Word) : (s.setReg i v).htinst = s.htinst := rfl
@[simp] theorem State.setReg_vsstatus (s : State) (i : Reg) (v : Word) : (s.setReg i v).vsstatus = s.vsstatus := rfl
@[simp] theorem State.setReg_vstvec (s : State) (i : Reg) (v : Word) : (s.setReg i v).vstvec = s.vstvec := rfl
@[simp] theorem State.setReg_vsepc (s : State) (i : Reg) (v : Word) : (s.setReg i v).vsepc = s.vsepc := rfl
@[simp] theorem State.setReg_vscause (s : State) (i : Reg) (v : Word) : (s.setReg i v).vscause = s.vscause := rfl
@[simp] theorem State.setReg_vstval (s : State) (i : Reg) (v : Word) : (s.setReg i v).vstval = s.vstval := rfl

/-! ## `setCounter` -/

@[simp] theorem State.setCounter_cfg (s : State) (i : CounterIx) (v : Word) : (s.setCounter i v).cfg = s.cfg := rfl
@[simp] theorem State.setCounter_draws (s : State) (i : CounterIx) (v : Word) : (s.setCounter i v).draws = s.draws := rfl
@[simp] theorem State.setCounter_x (s : State) (i : CounterIx) (v : Word) : (s.setCounter i v).x = s.x := rfl
@[simp] theorem State.setCounter_pc (s : State) (i : CounterIx) (v : Word) : (s.setCounter i v).pc = s.pc := rfl
@[simp] theorem State.setCounter_priv (s : State) (i : CounterIx) (v : Word) : (s.setCounter i v).priv = s.priv := rfl
@[simp] theorem State.setCounter_virt (s : State) (i : CounterIx) (v : Word) : (s.setCounter i v).virt = s.virt := rfl
@[simp] theorem State.setCounter_mem (s : State) (i : CounterIx) (v : Word) : (s.setCounter i v).mem = s.mem := rfl
@[simp] theorem State.setCounter_menvcfg (s : State) (i : CounterIx) (v : Word) : (s.setCounter i v).menvcfg = s.menvcfg := rfl
@[simp] theorem State.setCounter_mcounteren (s : State) (i : CounterIx) (v : Word) : (s.setCounter i v).mcounteren = s.mcounteren := rfl
@[simp] theorem State.setCounter_scounteren (s : State) (i : CounterIx) (v : Word) : (s.setCounter i v).scounteren = s.scounteren := rfl
@[simp] theorem State.setCounter_hcounteren (s : State) (i : CounterIx) (v : Word) : (s.setCounter i v).hcounteren = s.hcounteren := rfl
@[simp] theorem State.setCounter_mcountinhibit (s : State) (i : CounterIx) (v : Word) : (s.setCounter i v).mcountinhibit = s.mcountinhibit := rfl
@[simp] theorem State.setCounter_ctr (s : State) (i : CounterIx) (v : Word) :
    (s.setCounter i v).ctr = s.ctr.set i.val v i.isLt := rfl
@[simp] theorem State.setCounter_ccfg (s : State) (i : CounterIx) (v : Word) : (s.setCounter i v).ccfg = s.ccfg := rfl
@[simp] theorem State.setCounter_siselect (s : State) (i : CounterIx) (v : Word) : (s.setCounter i v).siselect = s.siselect := rfl
@[simp] theorem State.setCounter_vsiselect (s : State) (i : CounterIx) (v : Word) : (s.setCounter i v).vsiselect = s.vsiselect := rfl
@[simp] theorem State.setCounter_mstateen0 (s : State) (i : CounterIx) (v : Word) : (s.setCounter i v).mstateen0 = s.mstateen0 := rfl
@[simp] theorem State.setCounter_hstateen0 (s : State) (i : CounterIx) (v : Word) : (s.setCounter i v).hstateen0 = s.hstateen0 := rfl
@[simp] theorem State.setCounter_mie (s : State) (i : CounterIx) (v : Word) : (s.setCounter i v).mie = s.mie := rfl
@[simp] theorem State.setCounter_mip (s : State) (i : CounterIx) (v : Word) : (s.setCounter i v).mip = s.mip := rfl
@[simp] theorem State.setCounter_sie (s : State) (i : CounterIx) (v : Word) : (s.setCounter i v).sie = s.sie := rfl
@[simp] theorem State.setCounter_sip (s : State) (i : CounterIx) (v : Word) : (s.setCounter i v).sip = s.sip := rfl
@[simp] theorem State.setCounter_mvien (s : State) (i : CounterIx) (v : Word) : (s.setCounter i v).mvien = s.mvien := rfl
@[simp] theorem State.setCounter_mvip (s : State) (i : CounterIx) (v : Word) : (s.setCounter i v).mvip = s.mvip := rfl
@[simp] theorem State.setCounter_hvien (s : State) (i : CounterIx) (v : Word) : (s.setCounter i v).hvien = s.hvien := rfl
@[simp] theorem State.setCounter_hvip (s : State) (i : CounterIx) (v : Word) : (s.setCounter i v).hvip = s.hvip := rfl
@[simp] theorem State.setCounter_vsie (s : State) (i : CounterIx) (v : Word) : (s.setCounter i v).vsie = s.vsie := rfl
@[simp] theorem State.setCounter_vsip (s : State) (i : CounterIx) (v : Word) : (s.setCounter i v).vsip = s.vsip := rfl
@[simp] theorem State.setCounter_mideleg (s : State) (i : CounterIx) (v : Word) : (s.setCounter i v).mideleg = s.mideleg := rfl
@[simp] theorem State.setCounter_hideleg (s : State) (i : CounterIx) (v : Word) : (s.setCounter i v).hideleg = s.hideleg := rfl
@[simp] theorem State.setCounter_medeleg (s : State) (i : CounterIx) (v : Word) : (s.setCounter i v).medeleg = s.medeleg := rfl
@[simp] theorem State.setCounter_hedeleg (s : State) (i : CounterIx) (v : Word) : (s.setCounter i v).hedeleg = s.hedeleg := rfl
@[simp] theorem State.setCounter_mstatus (s : State) (i : CounterIx) (v : Word) : (s.setCounter i v).mstatus = s.mstatus := rfl
@[simp] theorem State.setCounter_mtvec (s : State) (i : CounterIx) (v : Word) : (s.setCounter i v).mtvec = s.mtvec := rfl
@[simp] theorem State.setCounter_mepc (s : State) (i : CounterIx) (v : Word) : (s.setCounter i v).mepc = s.mepc := rfl
@[simp] theorem State.setCounter_mcause (s : State) (i : CounterIx) (v : Word) : (s.setCounter i v).mcause = s.mcause := rfl
@[simp] theorem State.setCounter_mtval (s : State) (i : CounterIx) (v : Word) : (s.setCounter i v).mtval = s.mtval := rfl
@[simp] theorem State.setCounter_mtval2 (s : State) (i : CounterIx) (v : Word) : (s.setCounter i v).mtval2 = s.mtval2 := rfl
@[simp] theorem State.setCounter_mtinst (s : State) (i : CounterIx) (v : Word) : (s.setCounter i v).mtinst = s.mtinst := rfl
@[simp] theorem State.setCounter_sstatus (s : State) (i : CounterIx) (v : Word) : (s.setCounter i v).sstatus = s.sstatus := rfl
@[simp] theorem State.setCounter_hstatus (s : State) (i : CounterIx) (v : Word) : (s.setCounter i v).hstatus = s.hstatus := rfl
@[simp] theorem State.setCounter_stvec (s : State) (i : CounterIx) (v : Word) : (s.setCounter i v).stvec = s.stvec := rfl
@[simp] theorem State.setCounter_sepc (s : State) (i : CounterIx) (v : Word) : (s.setCounter i v).sepc = s.sepc := rfl
@[simp] theorem State.setCounter_scause (s : State) (i : CounterIx) (v : Word) : (s.setCounter i v).scause = s.scause := rfl
@[simp] theorem State.setCounter_stval (s : State) (i : CounterIx) (v : Word) : (s.setCounter i v).stval = s.stval := rfl
@[simp] theorem State.setCounter_htval (s : State) (i : CounterIx) (v : Word) : (s.setCounter i v).htval = s.htval := rfl
@[simp] theorem State.setCounter_htinst (s : State) (i : CounterIx) (v : Word) : (s.setCounter i v).htinst = s.htinst := rfl
@[simp] theorem State.setCounter_vsstatus (s : State) (i : CounterIx) (v : Word) : (s.setCounter i v).vsstatus = s.vsstatus := rfl
@[simp] theorem State.setCounter_vstvec (s : State) (i : CounterIx) (v : Word) : (s.setCounter i v).vstvec = s.vstvec := rfl
@[simp] theorem State.setCounter_vsepc (s : State) (i : CounterIx) (v : Word) : (s.setCounter i v).vsepc = s.vsepc := rfl
@[simp] theorem State.setCounter_vscause (s : State) (i : CounterIx) (v : Word) : (s.setCounter i v).vscause = s.vscause := rfl
@[simp] theorem State.setCounter_vstval (s : State) (i : CounterIx) (v : Word) : (s.setCounter i v).vstval = s.vstval := rfl

/-! ## `setCounterCfg` -/

@[simp] theorem State.setCounterCfg_cfg (s : State) (i : CounterIx) (v : Word) : (s.setCounterCfg i v).cfg = s.cfg := rfl
@[simp] theorem State.setCounterCfg_draws (s : State) (i : CounterIx) (v : Word) : (s.setCounterCfg i v).draws = s.draws := rfl
@[simp] theorem State.setCounterCfg_x (s : State) (i : CounterIx) (v : Word) : (s.setCounterCfg i v).x = s.x := rfl
@[simp] theorem State.setCounterCfg_pc (s : State) (i : CounterIx) (v : Word) : (s.setCounterCfg i v).pc = s.pc := rfl
@[simp] theorem State.setCounterCfg_priv (s : State) (i : CounterIx) (v : Word) : (s.setCounterCfg i v).priv = s.priv := rfl
@[simp] theorem State.setCounterCfg_virt (s : State) (i : CounterIx) (v : Word) : (s.setCounterCfg i v).virt = s.virt := rfl
@[simp] theorem State.setCounterCfg_mem (s : State) (i : CounterIx) (v : Word) : (s.setCounterCfg i v).mem = s.mem := rfl
@[simp] theorem State.setCounterCfg_menvcfg (s : State) (i : CounterIx) (v : Word) : (s.setCounterCfg i v).menvcfg = s.menvcfg := rfl
@[simp] theorem State.setCounterCfg_mcounteren (s : State) (i : CounterIx) (v : Word) : (s.setCounterCfg i v).mcounteren = s.mcounteren := rfl
@[simp] theorem State.setCounterCfg_scounteren (s : State) (i : CounterIx) (v : Word) : (s.setCounterCfg i v).scounteren = s.scounteren := rfl
@[simp] theorem State.setCounterCfg_hcounteren (s : State) (i : CounterIx) (v : Word) : (s.setCounterCfg i v).hcounteren = s.hcounteren := rfl
@[simp] theorem State.setCounterCfg_mcountinhibit (s : State) (i : CounterIx) (v : Word) : (s.setCounterCfg i v).mcountinhibit = s.mcountinhibit := rfl
@[simp] theorem State.setCounterCfg_ctr (s : State) (i : CounterIx) (v : Word) : (s.setCounterCfg i v).ctr = s.ctr := rfl
@[simp] theorem State.setCounterCfg_ccfg (s : State) (i : CounterIx) (v : Word) :
    (s.setCounterCfg i v).ccfg = s.ccfg.set i.val v i.isLt := rfl
@[simp] theorem State.setCounterCfg_siselect (s : State) (i : CounterIx) (v : Word) : (s.setCounterCfg i v).siselect = s.siselect := rfl
@[simp] theorem State.setCounterCfg_vsiselect (s : State) (i : CounterIx) (v : Word) : (s.setCounterCfg i v).vsiselect = s.vsiselect := rfl
@[simp] theorem State.setCounterCfg_mstateen0 (s : State) (i : CounterIx) (v : Word) : (s.setCounterCfg i v).mstateen0 = s.mstateen0 := rfl
@[simp] theorem State.setCounterCfg_hstateen0 (s : State) (i : CounterIx) (v : Word) : (s.setCounterCfg i v).hstateen0 = s.hstateen0 := rfl
@[simp] theorem State.setCounterCfg_mie (s : State) (i : CounterIx) (v : Word) : (s.setCounterCfg i v).mie = s.mie := rfl
@[simp] theorem State.setCounterCfg_mip (s : State) (i : CounterIx) (v : Word) : (s.setCounterCfg i v).mip = s.mip := rfl
@[simp] theorem State.setCounterCfg_sie (s : State) (i : CounterIx) (v : Word) : (s.setCounterCfg i v).sie = s.sie := rfl
@[simp] theorem State.setCounterCfg_sip (s : State) (i : CounterIx) (v : Word) : (s.setCounterCfg i v).sip = s.sip := rfl
@[simp] theorem State.setCounterCfg_mvien (s : State) (i : CounterIx) (v : Word) : (s.setCounterCfg i v).mvien = s.mvien := rfl
@[simp] theorem State.setCounterCfg_mvip (s : State) (i : CounterIx) (v : Word) : (s.setCounterCfg i v).mvip = s.mvip := rfl
@[simp] theorem State.setCounterCfg_hvien (s : State) (i : CounterIx) (v : Word) : (s.setCounterCfg i v).hvien = s.hvien := rfl
@[simp] theorem State.setCounterCfg_hvip (s : State) (i : CounterIx) (v : Word) : (s.setCounterCfg i v).hvip = s.hvip := rfl
@[simp] theorem State.setCounterCfg_vsie (s : State) (i : CounterIx) (v : Word) : (s.setCounterCfg i v).vsie = s.vsie := rfl
@[simp] theorem State.setCounterCfg_vsip (s : State) (i : CounterIx) (v : Word) : (s.setCounterCfg i v).vsip = s.vsip := rfl
@[simp] theorem State.setCounterCfg_mideleg (s : State) (i : CounterIx) (v : Word) : (s.setCounterCfg i v).mideleg = s.mideleg := rfl
@[simp] theorem State.setCounterCfg_hideleg (s : State) (i : CounterIx) (v : Word) : (s.setCounterCfg i v).hideleg = s.hideleg := rfl
@[simp] theorem State.setCounterCfg_medeleg (s : State) (i : CounterIx) (v : Word) : (s.setCounterCfg i v).medeleg = s.medeleg := rfl
@[simp] theorem State.setCounterCfg_hedeleg (s : State) (i : CounterIx) (v : Word) : (s.setCounterCfg i v).hedeleg = s.hedeleg := rfl
@[simp] theorem State.setCounterCfg_mstatus (s : State) (i : CounterIx) (v : Word) : (s.setCounterCfg i v).mstatus = s.mstatus := rfl
@[simp] theorem State.setCounterCfg_mtvec (s : State) (i : CounterIx) (v : Word) : (s.setCounterCfg i v).mtvec = s.mtvec := rfl
@[simp] theorem State.setCounterCfg_mepc (s : State) (i : CounterIx) (v : Word) : (s.setCounterCfg i v).mepc = s.mepc := rfl
@[simp] theorem State.setCounterCfg_mcause (s : State) (i : CounterIx) (v : Word) : (s.setCounterCfg i v).mcause = s.mcause := rfl
@[simp] theorem State.setCounterCfg_mtval (s : State) (i : CounterIx) (v : Word) : (s.setCounterCfg i v).mtval = s.mtval := rfl
@[simp] theorem State.setCounterCfg_mtval2 (s : State) (i : CounterIx) (v : Word) : (s.setCounterCfg i v).mtval2 = s.mtval2 := rfl
@[simp] theorem State.setCounterCfg_mtinst (s : State) (i : CounterIx) (v : Word) : (s.setCounterCfg i v).mtinst = s.mtinst := rfl
@[simp] theorem State.setCounterCfg_sstatus (s : State) (i : CounterIx) (v : Word) : (s.setCounterCfg i v).sstatus = s.sstatus := rfl
@[simp] theorem State.setCounterCfg_hstatus (s : State) (i : CounterIx) (v : Word) : (s.setCounterCfg i v).hstatus = s.hstatus := rfl
@[simp] theorem State.setCounterCfg_stvec (s : State) (i : CounterIx) (v : Word) : (s.setCounterCfg i v).stvec = s.stvec := rfl
@[simp] theorem State.setCounterCfg_sepc (s : State) (i : CounterIx) (v : Word) : (s.setCounterCfg i v).sepc = s.sepc := rfl
@[simp] theorem State.setCounterCfg_scause (s : State) (i : CounterIx) (v : Word) : (s.setCounterCfg i v).scause = s.scause := rfl
@[simp] theorem State.setCounterCfg_stval (s : State) (i : CounterIx) (v : Word) : (s.setCounterCfg i v).stval = s.stval := rfl
@[simp] theorem State.setCounterCfg_htval (s : State) (i : CounterIx) (v : Word) : (s.setCounterCfg i v).htval = s.htval := rfl
@[simp] theorem State.setCounterCfg_htinst (s : State) (i : CounterIx) (v : Word) : (s.setCounterCfg i v).htinst = s.htinst := rfl
@[simp] theorem State.setCounterCfg_vsstatus (s : State) (i : CounterIx) (v : Word) : (s.setCounterCfg i v).vsstatus = s.vsstatus := rfl
@[simp] theorem State.setCounterCfg_vstvec (s : State) (i : CounterIx) (v : Word) : (s.setCounterCfg i v).vstvec = s.vstvec := rfl
@[simp] theorem State.setCounterCfg_vsepc (s : State) (i : CounterIx) (v : Word) : (s.setCounterCfg i v).vsepc = s.vsepc := rfl
@[simp] theorem State.setCounterCfg_vscause (s : State) (i : CounterIx) (v : Word) : (s.setCounterCfg i v).vscause = s.vscause := rfl
@[simp] theorem State.setCounterCfg_vstval (s : State) (i : CounterIx) (v : Word) : (s.setCounterCfg i v).vstval = s.vstval := rfl

/-! ## `placeWord` -/

@[simp] theorem State.placeWord_cfg (s : State) (w : BitVec 32) : (s.placeWord w).cfg = s.cfg := rfl
@[simp] theorem State.placeWord_draws (s : State) (w : BitVec 32) : (s.placeWord w).draws = s.draws := rfl
@[simp] theorem State.placeWord_x (s : State) (w : BitVec 32) : (s.placeWord w).x = s.x := rfl
@[simp] theorem State.placeWord_pc (s : State) (w : BitVec 32) : (s.placeWord w).pc = s.pc := rfl
@[simp] theorem State.placeWord_priv (s : State) (w : BitVec 32) : (s.placeWord w).priv = s.priv := rfl
@[simp] theorem State.placeWord_virt (s : State) (w : BitVec 32) : (s.placeWord w).virt = s.virt := rfl
@[simp] theorem State.placeWord_mem (s : State) (w : BitVec 32) :
    (s.placeWord w).mem = Memory.writeBytes s.mem s.pc.toNat (bytesOfWord w) := rfl
@[simp] theorem State.placeWord_menvcfg (s : State) (w : BitVec 32) : (s.placeWord w).menvcfg = s.menvcfg := rfl
@[simp] theorem State.placeWord_mcounteren (s : State) (w : BitVec 32) : (s.placeWord w).mcounteren = s.mcounteren := rfl
@[simp] theorem State.placeWord_scounteren (s : State) (w : BitVec 32) : (s.placeWord w).scounteren = s.scounteren := rfl
@[simp] theorem State.placeWord_hcounteren (s : State) (w : BitVec 32) : (s.placeWord w).hcounteren = s.hcounteren := rfl
@[simp] theorem State.placeWord_mcountinhibit (s : State) (w : BitVec 32) : (s.placeWord w).mcountinhibit = s.mcountinhibit := rfl
@[simp] theorem State.placeWord_ctr (s : State) (w : BitVec 32) : (s.placeWord w).ctr = s.ctr := rfl
@[simp] theorem State.placeWord_ccfg (s : State) (w : BitVec 32) : (s.placeWord w).ccfg = s.ccfg := rfl
@[simp] theorem State.placeWord_siselect (s : State) (w : BitVec 32) : (s.placeWord w).siselect = s.siselect := rfl
@[simp] theorem State.placeWord_vsiselect (s : State) (w : BitVec 32) : (s.placeWord w).vsiselect = s.vsiselect := rfl
@[simp] theorem State.placeWord_mstateen0 (s : State) (w : BitVec 32) : (s.placeWord w).mstateen0 = s.mstateen0 := rfl
@[simp] theorem State.placeWord_hstateen0 (s : State) (w : BitVec 32) : (s.placeWord w).hstateen0 = s.hstateen0 := rfl
@[simp] theorem State.placeWord_mie (s : State) (w : BitVec 32) : (s.placeWord w).mie = s.mie := rfl
@[simp] theorem State.placeWord_mip (s : State) (w : BitVec 32) : (s.placeWord w).mip = s.mip := rfl
@[simp] theorem State.placeWord_sie (s : State) (w : BitVec 32) : (s.placeWord w).sie = s.sie := rfl
@[simp] theorem State.placeWord_sip (s : State) (w : BitVec 32) : (s.placeWord w).sip = s.sip := rfl
@[simp] theorem State.placeWord_mvien (s : State) (w : BitVec 32) : (s.placeWord w).mvien = s.mvien := rfl
@[simp] theorem State.placeWord_mvip (s : State) (w : BitVec 32) : (s.placeWord w).mvip = s.mvip := rfl
@[simp] theorem State.placeWord_hvien (s : State) (w : BitVec 32) : (s.placeWord w).hvien = s.hvien := rfl
@[simp] theorem State.placeWord_hvip (s : State) (w : BitVec 32) : (s.placeWord w).hvip = s.hvip := rfl
@[simp] theorem State.placeWord_vsie (s : State) (w : BitVec 32) : (s.placeWord w).vsie = s.vsie := rfl
@[simp] theorem State.placeWord_vsip (s : State) (w : BitVec 32) : (s.placeWord w).vsip = s.vsip := rfl
@[simp] theorem State.placeWord_mideleg (s : State) (w : BitVec 32) : (s.placeWord w).mideleg = s.mideleg := rfl
@[simp] theorem State.placeWord_hideleg (s : State) (w : BitVec 32) : (s.placeWord w).hideleg = s.hideleg := rfl
@[simp] theorem State.placeWord_medeleg (s : State) (w : BitVec 32) : (s.placeWord w).medeleg = s.medeleg := rfl
@[simp] theorem State.placeWord_hedeleg (s : State) (w : BitVec 32) : (s.placeWord w).hedeleg = s.hedeleg := rfl
@[simp] theorem State.placeWord_mstatus (s : State) (w : BitVec 32) : (s.placeWord w).mstatus = s.mstatus := rfl
@[simp] theorem State.placeWord_mtvec (s : State) (w : BitVec 32) : (s.placeWord w).mtvec = s.mtvec := rfl
@[simp] theorem State.placeWord_mepc (s : State) (w : BitVec 32) : (s.placeWord w).mepc = s.mepc := rfl
@[simp] theorem State.placeWord_mcause (s : State) (w : BitVec 32) : (s.placeWord w).mcause = s.mcause := rfl
@[simp] theorem State.placeWord_mtval (s : State) (w : BitVec 32) : (s.placeWord w).mtval = s.mtval := rfl
@[simp] theorem State.placeWord_mtval2 (s : State) (w : BitVec 32) : (s.placeWord w).mtval2 = s.mtval2 := rfl
@[simp] theorem State.placeWord_mtinst (s : State) (w : BitVec 32) : (s.placeWord w).mtinst = s.mtinst := rfl
@[simp] theorem State.placeWord_sstatus (s : State) (w : BitVec 32) : (s.placeWord w).sstatus = s.sstatus := rfl
@[simp] theorem State.placeWord_hstatus (s : State) (w : BitVec 32) : (s.placeWord w).hstatus = s.hstatus := rfl
@[simp] theorem State.placeWord_stvec (s : State) (w : BitVec 32) : (s.placeWord w).stvec = s.stvec := rfl
@[simp] theorem State.placeWord_sepc (s : State) (w : BitVec 32) : (s.placeWord w).sepc = s.sepc := rfl
@[simp] theorem State.placeWord_scause (s : State) (w : BitVec 32) : (s.placeWord w).scause = s.scause := rfl
@[simp] theorem State.placeWord_stval (s : State) (w : BitVec 32) : (s.placeWord w).stval = s.stval := rfl
@[simp] theorem State.placeWord_htval (s : State) (w : BitVec 32) : (s.placeWord w).htval = s.htval := rfl
@[simp] theorem State.placeWord_htinst (s : State) (w : BitVec 32) : (s.placeWord w).htinst = s.htinst := rfl
@[simp] theorem State.placeWord_vsstatus (s : State) (w : BitVec 32) : (s.placeWord w).vsstatus = s.vsstatus := rfl
@[simp] theorem State.placeWord_vstvec (s : State) (w : BitVec 32) : (s.placeWord w).vstvec = s.vstvec := rfl
@[simp] theorem State.placeWord_vsepc (s : State) (w : BitVec 32) : (s.placeWord w).vsepc = s.vsepc := rfl
@[simp] theorem State.placeWord_vscause (s : State) (w : BitVec 32) : (s.placeWord w).vscause = s.vscause := rfl
@[simp] theorem State.placeWord_vstval (s : State) (w : BitVec 32) : (s.placeWord w).vstval = s.vstval := rfl

/-! ## `counterEnv` -/

@[simp] theorem counterEnv_cfg (r : Retirement) (s : State) : (counterEnv r s).cfg = s.cfg := rfl
@[simp] theorem counterEnv_draws (r : Retirement) (s : State) :
    (counterEnv r s).draws = s.draws + 1 := rfl
@[simp] theorem counterEnv_x (r : Retirement) (s : State) : (counterEnv r s).x = s.x := rfl
@[simp] theorem counterEnv_pc (r : Retirement) (s : State) : (counterEnv r s).pc = s.pc := rfl
@[simp] theorem counterEnv_priv (r : Retirement) (s : State) : (counterEnv r s).priv = s.priv := rfl
@[simp] theorem counterEnv_virt (r : Retirement) (s : State) : (counterEnv r s).virt = s.virt := rfl
@[simp] theorem counterEnv_mem (r : Retirement) (s : State) : (counterEnv r s).mem = s.mem := rfl
@[simp] theorem counterEnv_menvcfg (r : Retirement) (s : State) : (counterEnv r s).menvcfg = s.menvcfg := rfl
@[simp] theorem counterEnv_mcounteren (r : Retirement) (s : State) : (counterEnv r s).mcounteren = s.mcounteren := rfl
@[simp] theorem counterEnv_scounteren (r : Retirement) (s : State) : (counterEnv r s).scounteren = s.scounteren := rfl
@[simp] theorem counterEnv_hcounteren (r : Retirement) (s : State) : (counterEnv r s).hcounteren = s.hcounteren := rfl
@[simp] theorem counterEnv_mcountinhibit (r : Retirement) (s : State) : (counterEnv r s).mcountinhibit = s.mcountinhibit := rfl
@[simp] theorem counterEnv_ctr (r : Retirement) (s : State) :
    (counterEnv r s).ctr = Vector.ofFn fun i => s.counter i + BitVec.ofNat 64 (s.counterDelta r i) := rfl
@[simp] theorem counterEnv_ccfg (r : Retirement) (s : State) :
    (counterEnv r s).ccfg = Vector.ofFn fun i => if s.overflows r i then withBit (s.counterCfg i) 63 true else s.counterCfg i := rfl
@[simp] theorem counterEnv_siselect (r : Retirement) (s : State) : (counterEnv r s).siselect = s.siselect := rfl
@[simp] theorem counterEnv_vsiselect (r : Retirement) (s : State) : (counterEnv r s).vsiselect = s.vsiselect := rfl
@[simp] theorem counterEnv_mstateen0 (r : Retirement) (s : State) : (counterEnv r s).mstateen0 = s.mstateen0 := rfl
@[simp] theorem counterEnv_hstateen0 (r : Retirement) (s : State) : (counterEnv r s).hstateen0 = s.hstateen0 := rfl
@[simp] theorem counterEnv_mie (r : Retirement) (s : State) : (counterEnv r s).mie = s.mie := rfl
@[simp] theorem counterEnv_mip (r : Retirement) (s : State) :
    (counterEnv r s).mip = if (List.finRange 32).any (s.overflows r) then withBit s.mip 13 true else s.mip := rfl
@[simp] theorem counterEnv_sie (r : Retirement) (s : State) : (counterEnv r s).sie = s.sie := rfl
@[simp] theorem counterEnv_sip (r : Retirement) (s : State) : (counterEnv r s).sip = s.sip := rfl
@[simp] theorem counterEnv_mvien (r : Retirement) (s : State) : (counterEnv r s).mvien = s.mvien := rfl
@[simp] theorem counterEnv_mvip (r : Retirement) (s : State) : (counterEnv r s).mvip = s.mvip := rfl
@[simp] theorem counterEnv_hvien (r : Retirement) (s : State) : (counterEnv r s).hvien = s.hvien := rfl
@[simp] theorem counterEnv_hvip (r : Retirement) (s : State) : (counterEnv r s).hvip = s.hvip := rfl
@[simp] theorem counterEnv_vsie (r : Retirement) (s : State) : (counterEnv r s).vsie = s.vsie := rfl
@[simp] theorem counterEnv_vsip (r : Retirement) (s : State) : (counterEnv r s).vsip = s.vsip := rfl
@[simp] theorem counterEnv_mideleg (r : Retirement) (s : State) : (counterEnv r s).mideleg = s.mideleg := rfl
@[simp] theorem counterEnv_hideleg (r : Retirement) (s : State) : (counterEnv r s).hideleg = s.hideleg := rfl
@[simp] theorem counterEnv_medeleg (r : Retirement) (s : State) : (counterEnv r s).medeleg = s.medeleg := rfl
@[simp] theorem counterEnv_hedeleg (r : Retirement) (s : State) : (counterEnv r s).hedeleg = s.hedeleg := rfl
@[simp] theorem counterEnv_mstatus (r : Retirement) (s : State) : (counterEnv r s).mstatus = s.mstatus := rfl
@[simp] theorem counterEnv_mtvec (r : Retirement) (s : State) : (counterEnv r s).mtvec = s.mtvec := rfl
@[simp] theorem counterEnv_mepc (r : Retirement) (s : State) : (counterEnv r s).mepc = s.mepc := rfl
@[simp] theorem counterEnv_mcause (r : Retirement) (s : State) : (counterEnv r s).mcause = s.mcause := rfl
@[simp] theorem counterEnv_mtval (r : Retirement) (s : State) : (counterEnv r s).mtval = s.mtval := rfl
@[simp] theorem counterEnv_mtval2 (r : Retirement) (s : State) : (counterEnv r s).mtval2 = s.mtval2 := rfl
@[simp] theorem counterEnv_mtinst (r : Retirement) (s : State) : (counterEnv r s).mtinst = s.mtinst := rfl
@[simp] theorem counterEnv_sstatus (r : Retirement) (s : State) : (counterEnv r s).sstatus = s.sstatus := rfl
@[simp] theorem counterEnv_hstatus (r : Retirement) (s : State) : (counterEnv r s).hstatus = s.hstatus := rfl
@[simp] theorem counterEnv_stvec (r : Retirement) (s : State) : (counterEnv r s).stvec = s.stvec := rfl
@[simp] theorem counterEnv_sepc (r : Retirement) (s : State) : (counterEnv r s).sepc = s.sepc := rfl
@[simp] theorem counterEnv_scause (r : Retirement) (s : State) : (counterEnv r s).scause = s.scause := rfl
@[simp] theorem counterEnv_stval (r : Retirement) (s : State) : (counterEnv r s).stval = s.stval := rfl
@[simp] theorem counterEnv_htval (r : Retirement) (s : State) : (counterEnv r s).htval = s.htval := rfl
@[simp] theorem counterEnv_htinst (r : Retirement) (s : State) : (counterEnv r s).htinst = s.htinst := rfl
@[simp] theorem counterEnv_vsstatus (r : Retirement) (s : State) : (counterEnv r s).vsstatus = s.vsstatus := rfl
@[simp] theorem counterEnv_vstvec (r : Retirement) (s : State) : (counterEnv r s).vstvec = s.vstvec := rfl
@[simp] theorem counterEnv_vsepc (r : Retirement) (s : State) : (counterEnv r s).vsepc = s.vsepc := rfl
@[simp] theorem counterEnv_vscause (r : Retirement) (s : State) : (counterEnv r s).vscause = s.vscause := rfl
@[simp] theorem counterEnv_vstval (r : Retirement) (s : State) : (counterEnv r s).vstval = s.vstval := rfl

/-! ## `aiaMoves` and `environment` -/

/-- The default relation of the LCOFI bits lives in the views: nothing moves between two steps (45_lcofi.md R193). -/
theorem aiaMoves_default {s : State} (h : hasDefaultViews s.cfg = true) : aiaMoves s = s := by
  unfold hasDefaultViews at h
  unfold aiaMoves
  split <;> simp_all

@[simp] theorem aiaMoves_cfg (s : State) : (aiaMoves s).cfg = s.cfg := by unfold aiaMoves; split <;> rfl
@[simp] theorem aiaMoves_draws (s : State) : (aiaMoves s).draws = s.draws := by unfold aiaMoves; split <;> rfl
@[simp] theorem aiaMoves_x (s : State) : (aiaMoves s).x = s.x := by unfold aiaMoves; split <;> rfl
@[simp] theorem aiaMoves_pc (s : State) : (aiaMoves s).pc = s.pc := by unfold aiaMoves; split <;> rfl
@[simp] theorem aiaMoves_priv (s : State) : (aiaMoves s).priv = s.priv := by unfold aiaMoves; split <;> rfl
@[simp] theorem aiaMoves_virt (s : State) : (aiaMoves s).virt = s.virt := by unfold aiaMoves; split <;> rfl
@[simp] theorem aiaMoves_mem (s : State) : (aiaMoves s).mem = s.mem := by unfold aiaMoves; split <;> rfl
@[simp] theorem aiaMoves_menvcfg (s : State) : (aiaMoves s).menvcfg = s.menvcfg := by unfold aiaMoves; split <;> rfl
@[simp] theorem aiaMoves_mcounteren (s : State) : (aiaMoves s).mcounteren = s.mcounteren := by unfold aiaMoves; split <;> rfl
@[simp] theorem aiaMoves_scounteren (s : State) : (aiaMoves s).scounteren = s.scounteren := by unfold aiaMoves; split <;> rfl
@[simp] theorem aiaMoves_hcounteren (s : State) : (aiaMoves s).hcounteren = s.hcounteren := by unfold aiaMoves; split <;> rfl
@[simp] theorem aiaMoves_mcountinhibit (s : State) : (aiaMoves s).mcountinhibit = s.mcountinhibit := by unfold aiaMoves; split <;> rfl
@[simp] theorem aiaMoves_ctr (s : State) : (aiaMoves s).ctr = s.ctr := by unfold aiaMoves; split <;> rfl
@[simp] theorem aiaMoves_ccfg (s : State) : (aiaMoves s).ccfg = s.ccfg := by unfold aiaMoves; split <;> rfl
@[simp] theorem aiaMoves_siselect (s : State) : (aiaMoves s).siselect = s.siselect := by unfold aiaMoves; split <;> rfl
@[simp] theorem aiaMoves_vsiselect (s : State) : (aiaMoves s).vsiselect = s.vsiselect := by unfold aiaMoves; split <;> rfl
@[simp] theorem aiaMoves_mstateen0 (s : State) : (aiaMoves s).mstateen0 = s.mstateen0 := by unfold aiaMoves; split <;> rfl
@[simp] theorem aiaMoves_hstateen0 (s : State) : (aiaMoves s).hstateen0 = s.hstateen0 := by unfold aiaMoves; split <;> rfl
@[simp] theorem aiaMoves_mvien (s : State) : (aiaMoves s).mvien = s.mvien := by unfold aiaMoves; split <;> rfl
@[simp] theorem aiaMoves_hvien (s : State) : (aiaMoves s).hvien = s.hvien := by unfold aiaMoves; split <;> rfl
@[simp] theorem aiaMoves_mideleg (s : State) : (aiaMoves s).mideleg = s.mideleg := by unfold aiaMoves; split <;> rfl
@[simp] theorem aiaMoves_hideleg (s : State) : (aiaMoves s).hideleg = s.hideleg := by unfold aiaMoves; split <;> rfl
@[simp] theorem aiaMoves_medeleg (s : State) : (aiaMoves s).medeleg = s.medeleg := by unfold aiaMoves; split <;> rfl
@[simp] theorem aiaMoves_hedeleg (s : State) : (aiaMoves s).hedeleg = s.hedeleg := by unfold aiaMoves; split <;> rfl
@[simp] theorem aiaMoves_mstatus (s : State) : (aiaMoves s).mstatus = s.mstatus := by unfold aiaMoves; split <;> rfl
@[simp] theorem aiaMoves_mtvec (s : State) : (aiaMoves s).mtvec = s.mtvec := by unfold aiaMoves; split <;> rfl
@[simp] theorem aiaMoves_mepc (s : State) : (aiaMoves s).mepc = s.mepc := by unfold aiaMoves; split <;> rfl
@[simp] theorem aiaMoves_mcause (s : State) : (aiaMoves s).mcause = s.mcause := by unfold aiaMoves; split <;> rfl
@[simp] theorem aiaMoves_mtval (s : State) : (aiaMoves s).mtval = s.mtval := by unfold aiaMoves; split <;> rfl
@[simp] theorem aiaMoves_mtval2 (s : State) : (aiaMoves s).mtval2 = s.mtval2 := by unfold aiaMoves; split <;> rfl
@[simp] theorem aiaMoves_mtinst (s : State) : (aiaMoves s).mtinst = s.mtinst := by unfold aiaMoves; split <;> rfl
@[simp] theorem aiaMoves_sstatus (s : State) : (aiaMoves s).sstatus = s.sstatus := by unfold aiaMoves; split <;> rfl
@[simp] theorem aiaMoves_hstatus (s : State) : (aiaMoves s).hstatus = s.hstatus := by unfold aiaMoves; split <;> rfl
@[simp] theorem aiaMoves_stvec (s : State) : (aiaMoves s).stvec = s.stvec := by unfold aiaMoves; split <;> rfl
@[simp] theorem aiaMoves_sepc (s : State) : (aiaMoves s).sepc = s.sepc := by unfold aiaMoves; split <;> rfl
@[simp] theorem aiaMoves_scause (s : State) : (aiaMoves s).scause = s.scause := by unfold aiaMoves; split <;> rfl
@[simp] theorem aiaMoves_stval (s : State) : (aiaMoves s).stval = s.stval := by unfold aiaMoves; split <;> rfl
@[simp] theorem aiaMoves_htval (s : State) : (aiaMoves s).htval = s.htval := by unfold aiaMoves; split <;> rfl
@[simp] theorem aiaMoves_htinst (s : State) : (aiaMoves s).htinst = s.htinst := by unfold aiaMoves; split <;> rfl
@[simp] theorem aiaMoves_vsstatus (s : State) : (aiaMoves s).vsstatus = s.vsstatus := by unfold aiaMoves; split <;> rfl
@[simp] theorem aiaMoves_vstvec (s : State) : (aiaMoves s).vstvec = s.vstvec := by unfold aiaMoves; split <;> rfl
@[simp] theorem aiaMoves_vsepc (s : State) : (aiaMoves s).vsepc = s.vsepc := by unfold aiaMoves; split <;> rfl
@[simp] theorem aiaMoves_vscause (s : State) : (aiaMoves s).vscause = s.vscause := by unfold aiaMoves; split <;> rfl
@[simp] theorem aiaMoves_vstval (s : State) : (aiaMoves s).vstval = s.vstval := by unfold aiaMoves; split <;> rfl

@[simp] theorem environment_cfg (r : Retirement) (s : State) : (environment r s).cfg = s.cfg := by simp [environment]
@[simp] theorem environment_x (r : Retirement) (s : State) : (environment r s).x = s.x := by simp [environment]
@[simp] theorem environment_pc (r : Retirement) (s : State) : (environment r s).pc = s.pc := by simp [environment]
@[simp] theorem environment_priv (r : Retirement) (s : State) : (environment r s).priv = s.priv := by simp [environment]
@[simp] theorem environment_virt (r : Retirement) (s : State) : (environment r s).virt = s.virt := by simp [environment]
@[simp] theorem environment_mem (r : Retirement) (s : State) : (environment r s).mem = s.mem := by simp [environment]
@[simp] theorem environment_menvcfg (r : Retirement) (s : State) : (environment r s).menvcfg = s.menvcfg := by simp [environment]
@[simp] theorem environment_mcounteren (r : Retirement) (s : State) : (environment r s).mcounteren = s.mcounteren := by simp [environment]
@[simp] theorem environment_scounteren (r : Retirement) (s : State) : (environment r s).scounteren = s.scounteren := by simp [environment]
@[simp] theorem environment_hcounteren (r : Retirement) (s : State) : (environment r s).hcounteren = s.hcounteren := by simp [environment]
@[simp] theorem environment_mcountinhibit (r : Retirement) (s : State) : (environment r s).mcountinhibit = s.mcountinhibit := by simp [environment]
@[simp] theorem environment_siselect (r : Retirement) (s : State) : (environment r s).siselect = s.siselect := by simp [environment]
@[simp] theorem environment_vsiselect (r : Retirement) (s : State) : (environment r s).vsiselect = s.vsiselect := by simp [environment]
@[simp] theorem environment_mstateen0 (r : Retirement) (s : State) : (environment r s).mstateen0 = s.mstateen0 := by simp [environment]
@[simp] theorem environment_hstateen0 (r : Retirement) (s : State) : (environment r s).hstateen0 = s.hstateen0 := by simp [environment]
@[simp] theorem environment_mvien (r : Retirement) (s : State) : (environment r s).mvien = s.mvien := by simp [environment]
@[simp] theorem environment_hvien (r : Retirement) (s : State) : (environment r s).hvien = s.hvien := by simp [environment]
@[simp] theorem environment_mideleg (r : Retirement) (s : State) : (environment r s).mideleg = s.mideleg := by simp [environment]
@[simp] theorem environment_hideleg (r : Retirement) (s : State) : (environment r s).hideleg = s.hideleg := by simp [environment]
@[simp] theorem environment_medeleg (r : Retirement) (s : State) : (environment r s).medeleg = s.medeleg := by simp [environment]
@[simp] theorem environment_hedeleg (r : Retirement) (s : State) : (environment r s).hedeleg = s.hedeleg := by simp [environment]
@[simp] theorem environment_mstatus (r : Retirement) (s : State) : (environment r s).mstatus = s.mstatus := by simp [environment]
@[simp] theorem environment_mtvec (r : Retirement) (s : State) : (environment r s).mtvec = s.mtvec := by simp [environment]
@[simp] theorem environment_mepc (r : Retirement) (s : State) : (environment r s).mepc = s.mepc := by simp [environment]
@[simp] theorem environment_mcause (r : Retirement) (s : State) : (environment r s).mcause = s.mcause := by simp [environment]
@[simp] theorem environment_mtval (r : Retirement) (s : State) : (environment r s).mtval = s.mtval := by simp [environment]
@[simp] theorem environment_mtval2 (r : Retirement) (s : State) : (environment r s).mtval2 = s.mtval2 := by simp [environment]
@[simp] theorem environment_mtinst (r : Retirement) (s : State) : (environment r s).mtinst = s.mtinst := by simp [environment]
@[simp] theorem environment_sstatus (r : Retirement) (s : State) : (environment r s).sstatus = s.sstatus := by simp [environment]
@[simp] theorem environment_hstatus (r : Retirement) (s : State) : (environment r s).hstatus = s.hstatus := by simp [environment]
@[simp] theorem environment_stvec (r : Retirement) (s : State) : (environment r s).stvec = s.stvec := by simp [environment]
@[simp] theorem environment_sepc (r : Retirement) (s : State) : (environment r s).sepc = s.sepc := by simp [environment]
@[simp] theorem environment_scause (r : Retirement) (s : State) : (environment r s).scause = s.scause := by simp [environment]
@[simp] theorem environment_stval (r : Retirement) (s : State) : (environment r s).stval = s.stval := by simp [environment]
@[simp] theorem environment_htval (r : Retirement) (s : State) : (environment r s).htval = s.htval := by simp [environment]
@[simp] theorem environment_htinst (r : Retirement) (s : State) : (environment r s).htinst = s.htinst := by simp [environment]
@[simp] theorem environment_vsstatus (r : Retirement) (s : State) : (environment r s).vsstatus = s.vsstatus := by simp [environment]
@[simp] theorem environment_vstvec (r : Retirement) (s : State) : (environment r s).vstvec = s.vstvec := by simp [environment]
@[simp] theorem environment_vsepc (r : Retirement) (s : State) : (environment r s).vsepc = s.vsepc := by simp [environment]
@[simp] theorem environment_vscause (r : Retirement) (s : State) : (environment r s).vscause = s.vscause := by simp [environment]
@[simp] theorem environment_vstval (r : Retirement) (s : State) : (environment r s).vstval = s.vstval := by simp [environment]

end Sys2Proof.Machine
end

