-- ==== Sys2Proof/Laws/Memory.lean ====
section
/-! SUPPORT. The laws of instruction memory: a read after a write, and that every operation keeps the canonical form. -/

namespace Sys2Proof.Machine

theorem Memory.read_write (m : Memory) (a b : Nat) (v : Byte) :
    Memory.read (Memory.write m a v) b = if b = a then some v else Memory.read m b := by
  induction m with
  | nil =>
    by_cases h : b = a
    · simp [Memory.write, Memory.read, h]
    · simp [Memory.write, Memory.read, h, Ne.symm h]
  | cons c rest ih =>
    obtain ⟨k, w⟩ := c
    rw [Memory.write]
    split
    · rename_i hlt
      by_cases h : b = a
      · simp [Memory.read, h]
      · simp [Memory.read, h, Ne.symm h]
    · split
      · rename_i _ heq
        subst heq
        by_cases h : b = a
        · simp [Memory.read, h]
        · simp [Memory.read, h, Ne.symm h]
      · rename_i hne
        rw [Memory.read, Memory.read, ih]
        by_cases h : b = a
        · subst h
          simp [Ne.symm hne]
        · simp [h]

theorem Memory.write_lower (m : Memory) (a k : Nat) (v : Byte) (hk : k < a) (h : ∀ c ∈ m, k < c.1) :
    ∀ c ∈ Memory.write m a v, k < c.1 := by
  induction m with
  | nil => simpa [Memory.write] using hk
  | cons c rest ih =>
    obtain ⟨b, w⟩ := c
    rw [Memory.write]
    have hb : k < b := h (b, w) (by simp)
    have hrest : ∀ c ∈ rest, k < c.1 := fun c hc => h c (by simp [hc])
    intro d hd
    split at hd
    · rcases List.mem_cons.mp hd with rfl | hd
      · exact hk
      · exact h d hd
    · split at hd
      · rcases List.mem_cons.mp hd with rfl | hd
        · exact hk
        · exact hrest d hd
      · rcases List.mem_cons.mp hd with rfl | hd
        · exact hb
        · exact ih hrest d hd

theorem Memory.write_wf (m : Memory) (a : Nat) (v : Byte) (h : Memory.wf m = true) :
    Memory.wf (Memory.write m a v) = true := by
  induction m with
  | nil => simp [Memory.write, Memory.wf]
  | cons c rest ih =>
    obtain ⟨b, w⟩ := c
    simp only [Memory.wf, Bool.and_eq_true, List.all_eq_true, decide_eq_true_eq] at h
    rw [Memory.write]
    split
    · rename_i hlt
      simp only [Memory.wf, Bool.and_eq_true, List.all_eq_true, decide_eq_true_eq]
      refine ⟨?_, h⟩
      intro d hd
      rcases List.mem_cons.mp hd with rfl | hd
      · exact hlt
      · exact Nat.lt_trans hlt (h.1 d hd)
    · split
      · rename_i _ heq
        subst heq
        simpa only [Memory.wf, Bool.and_eq_true, List.all_eq_true, decide_eq_true_eq] using h
      · rename_i hlt hne
        have hba : b < a := by omega
        simp only [Memory.wf, Bool.and_eq_true, List.all_eq_true, decide_eq_true_eq]
        exact ⟨Memory.write_lower rest a b v hba h.1, ih h.2⟩

theorem Memory.writeBytes_wf (bytes : List Byte) (m : Memory) (a : Nat) (h : Memory.wf m = true) :
    Memory.wf (Memory.writeBytes m a bytes) = true := by
  induction bytes generalizing m a with
  | nil => simpa [Memory.writeBytes] using h
  | cons b rest ih => exact ih _ _ (Memory.write_wf m a b h)

theorem Memory.read_writeBytes_of_lt (bytes : List Byte) (m : Memory) (a b : Nat) (h : b < a) :
    Memory.read (Memory.writeBytes m a bytes) b = Memory.read m b := by
  induction bytes generalizing m a with
  | nil => simp [Memory.writeBytes]
  | cons c rest ih =>
    rw [Memory.writeBytes, ih _ _ (by omega), Memory.read_write]
    simp [Nat.ne_of_lt h]

/-- Bytes read back where they were stored. -/
theorem Memory.readBytes_writeBytes (bytes : List Byte) (m : Memory) (a : Nat) :
    Memory.readBytes (Memory.writeBytes m a bytes) a bytes.length = some bytes := by
  induction bytes generalizing m a with
  | nil => simp [Memory.readBytes]
  | cons c rest ih =>
    have h1 : Memory.read (Memory.writeBytes (Memory.write m a c) (a + 1) rest) a = some c := by
      rw [Memory.read_writeBytes_of_lt rest _ _ _ (Nat.lt_succ_self a), Memory.read_write]
      simp
    have h2 := ih (Memory.write m a c) (a + 1)
    rw [Memory.writeBytes, List.length_cons, Memory.readBytes, h1, h2]

end Sys2Proof.Machine
end

