-- ==== Sys2Proof/Laws/Ops.lean ====
section
/-! SUPPORT. One lemma for each shared operation that says once everything it can do: the registers, a write of a
target, taking a trap, the checks of an access, the six instructions, the environment. -/

namespace Sys2Proof.Machine

/-! ## Registers -/

@[simp] theorem State.reg_zero (s : State) : s.reg 0 = 0 := rfl

/-- A register after a write of a register (10_state.md R20). -/
theorem State.reg_setReg (s : State) (i j : Reg) (v : Word) :
    (s.setReg i v).reg j = if j = i ∧ i ≠ 0 then trunc s.cfg.xlen v else s.reg j := by
  unfold State.reg
  simp only [State.setReg_cfg, State.setReg_x]
  by_cases hj : j = 0
  · subst hj
    by_cases hi : i = 0
    · simp [hi]
    · simp [hi, Ne.symm hi]
  · by_cases hi : i = 0
    · subst hi
      simp [hj]
    · by_cases h : j = i
      · subst h
        simp [hi, Vector.get_eq_getElem]
      · have hv : i.val ≠ j.val := fun e => h (Fin.ext e.symm)
        simp [hi, hj, h, Vector.get_eq_getElem, hv]

@[simp] theorem State.trunc_reg (s : State) (i : Reg) : trunc s.cfg.xlen (s.reg i) = s.reg i := by
  unfold State.reg
  split
  · exact trunc_zero _
  · exact trunc_trunc _ _

@[simp] theorem State.setReg_zero (s : State) (v : Word) : s.setReg 0 v = s := by
  unfold State.setReg
  simp

theorem State.counter_setCounter (s : State) (i j : CounterIx) (v : Word) :
    (s.setCounter i v).counter j = if j = i then v else s.counter j := by
  unfold State.counter State.setCounter
  by_cases h : j = i
  · subst h
    simp [Vector.get_eq_getElem]
  · have hv : i.val ≠ j.val := fun e => h (Fin.ext e.symm)
    simp [h, Vector.get_eq_getElem, hv]

theorem State.counterCfg_setCounterCfg (s : State) (i j : CounterIx) (v : Word) :
    (s.setCounterCfg i v).counterCfg j = if j = i then v else s.counterCfg j := by
  unfold State.counterCfg State.setCounterCfg
  by_cases h : j = i
  · subst h
    simp [Vector.get_eq_getElem]
  · have hv : i.val ≠ j.val := fun e => h (Fin.ext e.symm)
    simp [h, Vector.get_eq_getElem, hv]

/-! ## The state `sameOutside` and `sameCsrs` compare -/

theorem sameOutside_refl (s : State) : sameOutside s s := by
  simp only [sameOutside, and_self]

theorem sameCsrs_refl (s : State) : sameCsrs s s := by
  simp only [sameCsrs, and_self]

/-- A write of a target leaves the parameters, memory, the mode, the trap registers, the general registers and `pc`. -/
theorem Target.write_frame (tgt : Target) (v : Word) (s : State) :
    sameOutside s (tgt.write v s) ∧ (tgt.write v s).x = s.x ∧ (tgt.write v s).pc = s.pc := by
  cases tgt <;>
    exact ⟨⟨rfl, rfl, rfl, rfl, rfl, rfl, rfl, rfl, rfl, rfl, rfl, rfl, rfl, rfl, rfl, rfl, rfl, rfl, rfl, rfl, rfl,
      rfl, rfl, rfl, rfl, rfl, rfl⟩, rfl, rfl⟩

/-- A write of a target changes, of the control, counter, select, state-enable and interrupt registers, only that target
and what it shows. -/
theorem Target.write_differs (tgt : Target) (v : Word) (s : State) : onlyTargetDiffers tgt s (tgt.write v s) := by
  refine ⟨?_, ?_, ?_, ?_, ?_, ?_, ?_, ?_, ?_, ?_, ?_, ?_, ?_, ?_, ?_, ?_, ?_, ?_, ?_, ?_, ?_, ?_, ?_⟩
  case refine_6 =>
    intro j hj
    cases tgt with
    | counter i h =>
      show (s.setCounter i _).counter j = _
      rw [State.counter_setCounter, if_neg]
      rintro rfl
      exact hj h rfl
    | _ => rfl
  case refine_7 =>
    intro j hj
    cases tgt with
    | config i h m =>
      show (s.setCounterCfg i _).counterCfg j = _
      rw [State.counterCfg_setCounterCfg, if_neg]
      rintro rfl
      exact hj h m rfl
    | _ => rfl
  all_goals
    intros
    cases tgt <;> first | rfl | exact absurd rfl ‹_› | (rename_i h hh; exact absurd rfl (hh h))

/-- A write that changes no bit but the defined one leaves all others as they are (41_cde_and_delegation.md R120). -/
theorem writeFieldHalf_of_unchanged {c : Config} {h : Half} {bit : Nat} {old v : Word} (tag : Nat) (impl : Bool)
    (hu : ∀ j, j < 64 → j ≠ bit → (writeHalf c.xlen h old v).getLsbD j = old.getLsbD j) :
    writeFieldHalf c tag h bit impl old v = withBit old bit (impl && (writeHalf c.xlen h old v).getLsbD bit) := by
  unfold writeFieldHalf otherBits
  simp only [(withBit_eq_iff _ _ _).mpr hu, if_true, writeHalf_readHalf]

/-- On a 32-bit hart a write of the low half leaves bits 63:32 (10_state.md R25), but for a bit that is not implemented. -/
theorem writeFieldHalf_rv32_low_getLsbD {c : Config} (hx : c.xlen = .rv32) (tag bit : Nat) (impl : Bool) (old v : Word)
    {j : Nat} (h32 : 32 ≤ j) (h64 : j < 64) :
    (writeFieldHalf c tag .low bit impl old v).getLsbD j = ((j != bit || impl) && old.getLsbD j) := by
  unfold writeFieldHalf
  simp only [hx, withBit_getLsbD _ _ _ _ h64]
  split
  · rename_i e
    subst e
    simp [writeHalf_rv32_low_getLsbD, Nat.not_lt.mpr h32]
  · rename_i e
    simp [writeHalf_rv32_low_getLsbD, Nat.not_lt.mpr h32, e]

/-- What a target reads is an `XLEN`-bit value (30_encoding.md R89). -/
@[simp] theorem Target.trunc_read (tgt : Target) (s : State) : trunc s.cfg.xlen (tgt.read s) = tgt.read s := by
  cases tgt <;> simp only [Target.read, trunc_readHalf, trunc_trunc, trunc_setWidth]

/-- Taking a trap leaves the parameters, memory, the general registers and every CSR but the trap registers. -/
theorem enterTrap_frame (t : TrapTarget) (cause tval : Word) (c : Option Nat) (s : State) :
    (enterTrap t cause tval c s).cfg = s.cfg ∧ (enterTrap t cause tval c s).draws = s.draws ∧
    (enterTrap t cause tval c s).mem = s.mem ∧ (enterTrap t cause tval c s).x = s.x ∧
    (enterTrap t cause tval c s).medeleg = s.medeleg ∧ (enterTrap t cause tval c s).hedeleg = s.hedeleg ∧
    sameCsrs s (enterTrap t cause tval c s) := by
  unfold enterTrap standardTrapEntry freeTrapEntry
  split <;> (try cases t) <;>
    exact ⟨rfl, rfl, rfl, rfl, rfl, rfl, rfl, rfl, rfl, rfl, rfl, rfl, rfl, rfl, rfl, rfl, rfl, rfl, rfl, rfl, rfl,
      rfl, rfl, rfl, rfl, rfl, rfl, rfl, rfl⟩

/-- Under the default `TrapEntry` taking a trap is the sequence of 60_exceptions.md R212. -/
theorem enterTrap_standard {s : State} (h : s.cfg.trapEntry = .standard) (t : TrapTarget) (cause tval : Word)
    (c : Option Nat) : enterTrap t cause tval c s = standardTrapEntry t cause tval c s := by
  rw [enterTrap, h]

/-- The mode and the pc after a trap taken by the default sequence. -/
theorem standardTrapEntry_mode (t : TrapTarget) (cause tval : Word) (c : Option Nat) (s : State) :
    (standardTrapEntry t cause tval c s).priv = (if t = .m then .m else .s) ∧
    (standardTrapEntry t cause tval c s).virt = decide (t = .vs) ∧
    (standardTrapEntry t cause tval c s).pc =
      vectorEntry s.cfg.xlen (match t with | .m => s.mtvec | .hs => s.stvec | .vs => s.vstvec) c := by
  cases t <;> exact ⟨rfl, rfl, rfl⟩

/-- The mode and the pc after a trap taken by a free `TrapEntry`. -/
theorem freeTrapEntry_mode (id : Nat) (cause tval : Word) (s : State) :
    let t := freeTrapEntry id cause tval s
    (t.priv = .s → s.cfg.hasSMode = true) ∧ (t.virt = true → s.cfg.hasH = true ∧ t.priv ≠ .m) ∧
    ∃ pc, t.pc = trunc s.cfg.xlen (vectorBase pc) := by
  refine ⟨?_, ?_, _, rfl⟩
  · simp only [freeTrapEntry, State.legalPriv]
    split <;> simp_all
  · simp only [freeTrapEntry, Bool.and_eq_true, bne_iff_ne]
    exact fun h => ⟨h.1.2, h.2⟩

/-! ## The access procedure -/

/-- What it takes for an access to reach a target. -/
theorem State.access_reach {s : State} {n : CsrNum} {w : Bool} {tgt : Target} (h : s.access n w = .reach tgt) :
    ∃ c, Csr.ofNumber n = some c ∧ s.permission n c w = none ∧ s.resolve c = .reach tgt := by
  unfold State.access at h
  split at h
  · cases h
  · rename_i c hc
    split at h
    · cases h
    · rename_i hp
      exact ⟨c, hc, hp, h⟩

/-- An access to a known CSR number is decided by `permission` and then by `resolve`. -/
theorem State.access_of_number {s : State} {n : CsrNum} {w : Bool} {c : Csr} (h : Csr.ofNumber n = some c) :
    s.access n w = match s.permission n c w with
      | some e => .raise e
      | none => s.resolve c := by
  cases hp : s.permission n c w <;> simp [State.access, h, hp]

/-- An access that is permitted and resolves to a target reaches it. -/
theorem State.access_of_permitted {s : State} {n : CsrNum} {w : Bool} {c : Csr} (h : Csr.ofNumber n = some c)
    (hp : s.permission n c w = none) : s.access n w = s.resolve c := by
  rw [State.access_of_number h, hp]

/-- An access that a check of `permission` stops raises. -/
theorem State.access_of_denied {s : State} {n : CsrNum} {w : Bool} {c : Csr} {e : Exc} (h : Csr.ofNumber n = some c)
    (hp : s.permission n c w = some e) : s.access n w = .raise e := by
  rw [State.access_of_number h, hp]

/-! ## The six instructions -/

/-- Every instruction is `csrInstr` over its own operands. -/
theorem exec_eq_csrInstr (i : Instr) (s : State) :
    exec i s = csrInstr (encode i) i.rd i.csrNum (wantsWrite i) (writtenValue i s) s := by
  cases i <;> rfl

theorem exec_of_refuse {i : Instr} {s : State} {r : Refusal} (h : s.access i.csrNum (wantsWrite i) = .refuse r) :
    OutOfScope r i s := by
  unfold OutOfScope
  rw [exec_eq_csrInstr, csrInstr, h]

theorem exec_of_raise {i : Instr} {s : State} {e : Exc} (h : s.access i.csrNum (wantsWrite i) = .raise e) :
    Raises e i s := by
  unfold Raises
  rw [exec_eq_csrInstr, csrInstr, h]

/-- The state `afterAccess` gives, with the moved `pc` written from the updated state. -/
theorem exec_of_reach {i : Instr} {s : State} {tgt : Target} (h : s.access i.csrNum (wantsWrite i) = .reach tgt) :
    exec i s = if 2 ^ xlenBits s.cfg.xlen ≤ s.pc.toNat + 4 then .refused .pcWraps else .next (afterAccess i tgt s) := by
  rw [exec_eq_csrInstr, csrInstr, h]
  unfold advance afterAccess
  by_cases hw : wantsWrite i = true
  · obtain ⟨hf, -, hp⟩ := Target.write_frame tgt (trunc s.cfg.xlen (writtenValue i s (tgt.read s))) s
    simp only [hw, if_true, State.setReg_cfg, State.setReg_pc, hf.1, hp]
  · simp only [hw, Bool.false_eq_true, if_false, State.setReg_cfg, State.setReg_pc]

theorem completes_of_reach {i : Instr} {s : State} {tgt : Target} (h : s.access i.csrNum (wantsWrite i) = .reach tgt)
    (hp : s.pcInRange) : Completes i s (afterAccess i tgt s) := by
  unfold Completes
  rw [exec_of_reach h, if_neg (Nat.not_le.mpr hp)]

/-- What an instruction can do when it gives a next state: raise an exception, or complete over the target reached. -/
theorem exec_next_cases {i : Instr} {s t : State} (h : exec i s = .next t) :
    (∃ e, s.access i.csrNum (wantsWrite i) = .raise e ∧ t = takeException e (encode i) s) ∨
    (∃ tgt, s.access i.csrNum (wantsWrite i) = .reach tgt ∧ s.pcInRange ∧ t = afterAccess i tgt s) := by
  cases ha : s.access i.csrNum (wantsWrite i) with
  | refuse r => rw [exec_of_refuse ha] at h; cases h
  | raise e =>
    rw [exec_of_raise ha] at h
    cases h
    exact .inl ⟨e, rfl, rfl⟩
  | reach tgt =>
    rw [exec_of_reach ha] at h
    split at h
    · cases h
    · rename_i hp
      cases h
      exact .inr ⟨tgt, rfl, Nat.lt_of_not_le hp, rfl⟩

/-- No instruction faults. -/
theorem exec_never_faults (i : Instr) (s : State) (f : Fault) : exec i s ≠ .fault f := by
  intro h
  cases ha : s.access i.csrNum (wantsWrite i) with
  | refuse r => rw [exec_of_refuse ha] at h; cases h
  | raise e => rw [exec_of_raise ha] at h; cases h
  | reach tgt =>
    rw [exec_of_reach ha] at h
    split at h <;> cases h

/-! ## The step -/

/-- What a step can do when it gives a next state: take an LCOFI, or run the instruction it fetched. -/
theorem step_next_cases {s t : State} (h : step s = .next t) :
    (∃ l, s.lcofiTaken = some l ∧ t = environment s.noRetirement (takeLcofi l s)) ∨
    (∃ i u, s.lcofiTaken = none ∧ s.fetch = .instr i ∧ exec i s = .next u ∧ t = environment (s.retirement i) u) := by
  unfold step at h
  split at h
  · rename_i l hl
    cases h
    exact .inl ⟨l, hl, rfl⟩
  · rename_i hl
    unfold runInstr at h
    split at h
    · cases h
    · cases h
    · rename_i i hi
      split at h
      · rename_i u hu
        cases h
        exact .inr ⟨i, u, hl, hi, hu, rfl⟩
      · cases h
      · cases h

/-- A counter after the environment acted (70_reset_and_hazards.md R238). -/
theorem counterEnv_counter (r : Retirement) (s : State) (i : CounterIx) :
    (counterEnv r s).counter i = s.counter i + BitVec.ofNat 64 (s.counterDelta r i) := by
  simp [State.counter, counterEnv]

/-- A configuration register after the environment acted. -/
theorem counterEnv_counterCfg (r : Retirement) (s : State) (i : CounterIx) :
    (counterEnv r s).counterCfg i = if s.overflows r i then withBit (s.counterCfg i) 63 true else s.counterCfg i := by
  simp [State.counterCfg, counterEnv]

/-- Where the LCOFI bits move between two steps, bit 13 alone does (45_lcofi.md R193). -/
theorem aiaMoves_bits (s : State) (j : Nat) (h64 : j < 64) (hj : j ≠ 13) :
    (aiaMoves s).mip.getLsbD j = s.mip.getLsbD j ∧ (aiaMoves s).mie.getLsbD j = s.mie.getLsbD j ∧
    (aiaMoves s).sip.getLsbD j = s.sip.getLsbD j ∧ (aiaMoves s).sie.getLsbD j = s.sie.getLsbD j ∧
    (aiaMoves s).mvip.getLsbD j = s.mvip.getLsbD j ∧ (aiaMoves s).hvip.getLsbD j = s.hvip.getLsbD j ∧
    (aiaMoves s).vsip.getLsbD j = s.vsip.getLsbD j ∧ (aiaMoves s).vsie.getLsbD j = s.vsie.getLsbD j := by
  unfold aiaMoves
  split <;> simp only [withBit_getLsbD _ _ _ _ h64, if_neg hj, and_self]

/-- The movement of the LCOFI bits has no part in how far a counter advances. -/
@[simp] theorem aiaMoves_counterDelta (r : Retirement) (s : State) (i : CounterIx) :
    (aiaMoves s).counterDelta r i = s.counterDelta r i := by
  unfold aiaMoves
  split <;> rfl

@[simp] theorem aiaMoves_overflows (r : Retirement) (s : State) (i : CounterIx) :
    (aiaMoves s).overflows r i = s.overflows r i := by
  unfold aiaMoves
  split <;> rfl

/-- A counter after the environment acted (70_reset_and_hazards.md R238). -/
theorem environment_counter (r : Retirement) (s : State) (i : CounterIx) :
    (environment r s).counter i = s.counter i + BitVec.ofNat 64 (s.counterDelta r i) := by
  rw [environment, counterEnv_counter]
  simp [State.counter]

/-- A configuration register after the environment acted. -/
theorem environment_counterCfg (r : Retirement) (s : State) (i : CounterIx) :
    (environment r s).counterCfg i = if s.overflows r i then withBit (s.counterCfg i) 63 true else s.counterCfg i := by
  rw [environment, counterEnv_counterCfg]
  simp [State.counterCfg]

end Sys2Proof.Machine
end

