-- ==== Sys2Proof/Laws/Access.lean ====
section
/-! SUPPORT. What the checks of an access let through, mode by mode, and what an access that completes leaves. -/

namespace Sys2Proof.Machine

/-! ## Modes -/

theorem State.mode_of_machine {s : State} (h : s.priv = .m) : s.mode = .m := by
  unfold State.mode
  simp [h]

theorem State.mode_of_host {s : State} (hv : s.virt = false) (hu : s.priv ≠ .u) : s.mode = .m ∨ s.mode = .s := by
  unfold State.mode
  revert hu
  cases s.priv <;> simp [hv]

theorem State.mode_of_guest {s : State} (hm : s.mode = .vs ∨ s.mode = .vu) :
    s.virt = true ∧ s.mode ≠ .m ∧ s.mode ≠ .u := by
  revert hm
  unfold State.mode
  cases s.priv <;> cases s.virt <;> simp

/-! ## Permission -/

/-- In M-mode every register that exists is permitted, but for a write of a read-only one. -/
theorem State.permission_machine {s : State} {n : CsrNum} {c : Csr} {w : Bool} (hn : Csr.ofNumber n = some c)
    (hp : s.priv = .m) (hv : s.virt = false) (hro : (w && c.readOnly) = false) (hex : s.csrExists c = true) :
    s.permission n c w = none := by
  have ha : c ≠ .absent := by rintro rfl; cases hex
  have hm := State.mode_of_machine hp
  have hb : s.mstateenBlocks c = false := by simp [State.mstateenBlocks, hm]
  have hb2 : s.hstateenBlocks c = false := by simp [State.hstateenBlocks, hv]
  unfold State.permission
  rw [(Csr.of_number hn).2.1, (Csr.of_number hn).1 ha, hro]
  simp only [hex, hb, hb2, hv, hm]
  cases c <;> simp_all [Csr.level, State.userCounterDenied]

/-- In M or S mode every supervisor or hypervisor-level read-write register that exists is permitted, when no
state-enable bit blocks it. -/
theorem State.permission_host {s : State} {n : CsrNum} {c : Csr} {w : Bool} (hn : Csr.ofNumber n = some c)
    (hv : s.virt = false) (hu : s.priv ≠ .u) (hl : c.level = .supervisor ∨ c.level = .hypervisor)
    (hro : c.readOnly = false) (hst : s.stateenOpen ∨ gatedByMstateen c = false) (hex : s.csrExists c = true) :
    s.permission n c w = none := by
  have ha : c ≠ .absent := by rintro rfl; cases hex
  have hb : s.mstateenBlocks c = false := by
    unfold State.mstateenBlocks
    rcases hst with h | h
    · by_cases h1 : s.cfg.hasSmstateen = true
      · by_cases h2 : s.mode = .m
        · simp [h2]
        · rw [(h h1 h2).1]
          simp
      · simp [h1]
    · simp [h]
  have hb2 : s.hstateenBlocks c = false := by simp [State.hstateenBlocks, hv]
  unfold State.permission
  rw [(Csr.of_number hn).2.1, (Csr.of_number hn).1 ha]
  simp only [hex, hb, hb2, hv, hro]
  rcases State.mode_of_host hv hu with hm | hm <;> rcases hl with hl | hl <;> simp [hm, hl] <;>
    cases c <;> simp_all [Csr.level]

/-- What a permitted access below M-mode is known to be. -/
theorem State.permission_below_machine {s : State} {n : CsrNum} {c : Csr} {w : Bool} (hn : Csr.ofNumber n = some c)
    (hm : s.mode ≠ .m) (hp : s.permission n c w = none) :
    s.csrExists c = true ∧ c ≠ .absent ∧ c.level ≠ .machine ∧ (w = true → c.readOnly = false) ∧
    (s.virt = true → c.level ≠ .hypervisor) ∧ (s.mode = .vu ∨ s.mode = .u → c.level = .user) := by
  have ha : c ≠ .absent := by rintro rfl; simp [State.permission, State.csrExists] at hp
  have hl := (Csr.of_number hn).1 ha
  unfold State.permission at hp
  rw [hl, (Csr.of_number hn).2.1] at hp
  by_cases h1 : s.csrExists c = true
  swap
  · simp [h1] at hp
  refine ⟨h1, ha, ?_⟩
  simp only [h1, Bool.not_true, Bool.false_eq_true, if_false] at hp
  by_cases h2 : c.level = .machine
  · simp [h2, hm] at hp
  rw [if_neg (fun h => h2 h.1)] at hp
  by_cases h3 : s.mode = .u ∧ (c.level = .supervisor ∨ c.level = .hypervisor)
  · rw [if_pos h3] at hp
    cases hp
  rw [if_neg h3] at hp
  by_cases h4 : (w && c.readOnly) = true
  · rw [if_pos h4] at hp
    cases hp
  rw [if_neg h4] at hp
  split at hp
  · cases hp
  by_cases h5 : s.virt = true ∧ c.level = .hypervisor
  · rw [if_pos h5] at hp
    cases hp
  rw [if_neg h5] at hp
  by_cases h6 : s.mode = .vu ∧ c.level = .supervisor
  · rw [if_pos h6] at hp
    cases hp
  refine ⟨h2, fun hw => by simpa [hw] using h4, fun hv h => h5 ⟨hv, h⟩, fun h => ?_⟩
  have hvu : s.mode = .vu → s.virt = true := fun h => (State.mode_of_guest (.inr h)).1
  cases hc : c.level <;> simp_all

/-- What a write leaves in a select register: the value where the register is bound to hold it, and else what its
legaliser makes of it. -/
theorem selectLegal_eq (c : Config) (l : Legaliser) (minimum : Bool) (tag : Nat) (old v : Word) (h : trunc c.xlen v = v) :
    selectLegal c l minimum tag old v =
      if (c.hasSmcdeleg = true ∧ inWindow v = true) ∨ (minimum = true ∧ v.toNat ≤ 0xFFF) then v
      else trunc c.xlen (legalise l tag old v) := by
  simp [selectLegal, selectHeld, h]

/-- When the window rules apply to a select value. -/
theorem State.selectsWindow_iff (s : State) (v : Word) :
    s.selectsWindow v = true ↔ inWindow (trunc s.cfg.xlen v) = true ∧ s.windowApplies := by
  simp [State.selectsWindow, State.windowApplies]

/-- Where the window rules do not apply, the access is out of scope. -/
theorem State.selectsWindow_false {s : State} {v : Word}
    (h : inWindow (trunc s.cfg.xlen v) = false ∨ ¬ s.windowApplies) : s.selectsWindow v = false := by
  rw [Bool.eq_false_iff, Ne, State.selectsWindow_iff]
  rintro ⟨hw, ha⟩
  rcases h with h | h
  · rw [h] at hw
    cases hw
  · exact h ha

/-! ## What can be written below M-mode -/

/-- What a write from below M-mode may reach (60_exceptions.md R218): no machine-level register; a counter or
configuration register only through the window, delegated, with MINH hidden; `mcountinhibit` only through
`scountinhibit`. -/
def writableBelowMachine (s : State) : Target → Prop
  | .counter j _ => s.delegated j = true ∧ s.virt = false
  | .config j _ hides => hides = true ∧ s.delegated j = true ∧ s.virt = false
  | .scountinhibit => s.virt = false ∧ s.cde = true
  | .siselect => s.virt = false
  | .menvcfg _ | .mcounteren | .mcountinhibit | .mstateen0 _ | .mie | .mip | .mvien | .mvip | .mideleg => False
  | _ => True

theorem State.window_reach {s : State} {k : IndirectReg} {tgt : Target} (h : s.window k = .reach tgt) :
    s.delegated (windowIx s.siselect) = true ∧ windowIx s.siselect ≠ 1 ∧ windowCell (windowIx s.siselect) k = some tgt := by
  unfold State.window at h
  simp only at h
  split at h
  · cases h
  rename_i hcde
  split at h
  · cases h
  split at h
  · cases h
  rename_i h1
  split at h
  · cases h
  rename_i hmc
  split at h
  · cases h
  split at h
  · rename_i t ht
    cases h
    refine ⟨?_, h1, ht⟩
    unfold State.delegated
    simp only [Bool.not_eq_true', Bool.not_eq_false] at hcde hmc
    rw [hcde, hmc]
    rfl
  · cases h

theorem State.write_below_machine {s : State} {n : CsrNum} {tgt : Target} (hm : s.mode ≠ .m)
    (h : s.access n true = .reach tgt) : writableBelowMachine s tgt := by
  obtain ⟨c, hn, hp, hr⟩ := State.access_reach h
  obtain ⟨hex, ha, hl, hro, -, hu⟩ := State.permission_below_machine hn hm hp
  have hro := hro rfl
  have hnv : s.mode ≠ .vs → s.virt = false := by
    intro hvs
    have hnu : s.mode = .vu → False := by
      intro hvu
      have := hu (.inl hvu)
      cases c <;> simp_all [Csr.level, Csr.readOnly]
    revert hm hvs hnu
    unfold State.mode
    cases s.priv <;> cases s.virt <;> simp
  cases c with
  | sireg k =>
    simp only [State.resolve, State.resolveSireg] at hr
    split at hr
    · split at hr
      · split at hr <;> cases hr
      · cases hr
    · rename_i hvs
      split at hr
      · obtain ⟨hd, -, hc⟩ := State.window_reach hr
        cases k <;> simp only [windowCell, Option.some.injEq, reduceCtorEq] at hc <;> subst hc
        · exact ⟨hd, hnv hvs⟩
        · exact ⟨rfl, hd, hnv hvs⟩
        · exact ⟨hd, hnv hvs⟩
        · exact ⟨rfl, hd, hnv hvs⟩
      · cases hr
  | siselect =>
    simp only [State.resolve] at hr
    split at hr <;> cases hr
    · trivial
    · exact hnv ‹_›
  | scountinhibit =>
    simp only [State.resolve] at hr
    split at hr <;> cases hr
    refine ⟨by simpa using ‹¬ s.virt = true›, ?_⟩
    simp only [State.csrExists, Bool.and_eq_true] at hex
    exact hex.2
  | vsireg k =>
    simp only [State.resolve, State.resolveVsireg] at hr
    split at hr <;> cases hr
  | scountovf => cases hro
  | userCounter i h => cases hro
  | sie => simp only [State.resolve] at hr; split at hr <;> cases hr <;> trivial
  | sip => simp only [State.resolve] at hr; split at hr <;> cases hr <;> trivial
  | absent => exact absurd rfl ha
  | _ => first | exact absurd rfl hl | (simp only [State.resolve] at hr; cases hr; trivial)

/-- What an instruction below M-mode can do when it gives a next state. -/
theorem exec_below_machine {i : Instr} {s t : State} (hm : s.mode ≠ .m) (h : exec i s = .next t) :
    (∃ e, t = takeException e (encode i) s) ∨
    (∃ tgt, t = afterAccess i tgt s ∧ (wantsWrite i = true → writableBelowMachine s tgt)) := by
  rcases exec_next_cases h with ⟨e, -, rfl⟩ | ⟨tgt, ha, -, rfl⟩
  · exact .inl ⟨e, rfl⟩
  · refine .inr ⟨tgt, rfl, fun hw => ?_⟩
    rw [hw] at ha
    exact State.write_below_machine hm ha

/-! ## The state after an access -/

theorem afterAccess_sameOutside (i : Instr) (tgt : Target) (s : State) : sameOutside s (afterAccess i tgt s) := by
  unfold afterAccess
  simp only
  split
  · exact (Target.write_frame tgt _ s).1
  · exact sameOutside_refl s

theorem afterAccess_sameCsrs {i : Instr} (tgt : Target) (s : State) (hw : wantsWrite i = false) :
    sameCsrs s (afterAccess i tgt s) := by
  unfold afterAccess
  simp only [hw, Bool.false_eq_true, if_false]
  exact sameCsrs_refl s

theorem afterAccess_rd (i : Instr) (tgt : Target) (s : State) :
    (afterAccess i tgt s).reg i.rd = if i.rd = 0 then 0 else tgt.read s := by
  have hf := (Target.write_frame tgt (trunc s.cfg.xlen (writtenValue i s (tgt.read s))) s).1
  unfold afterAccess
  simp only
  split
  · change ((tgt.write _ s).setReg i.rd _).reg _ = _
    rw [State.reg_setReg]
    by_cases h : i.rd = 0
    · simp [h]
    · simp [h, hf.1]
  · change (s.setReg i.rd _).reg _ = _
    rw [State.reg_setReg]
    by_cases h : i.rd = 0
    · simp [h]
    · simp [h]

end Sys2Proof.Machine
end

