-- ==== Sys2Proof/Laws/PerInstr.lean ====
section
/-! SUPPORT. One lemma per constructor of `Instr`: the word of the instruction matches its own row of
spec/opcode_table.json, `w & 0x707F = match` (30_encoding.md R87). -/

namespace Sys2Proof

/-- The `match` column of the row of an instruction (30_encoding.md R87). -/
def rowMatch : Instr → BitVec 32
  | .csrrw _ _ _ => 0x00001073
  | .csrrs _ _ _ => 0x00002073
  | .csrrc _ _ _ => 0x00003073
  | .csrrwi _ _ _ => 0x00005073
  | .csrrsi _ _ _ => 0x00006073
  | .csrrci _ _ _ => 0x00007073

/-- A word of five fields under the mask 0x707F keeps `funct3` and the opcode only. -/
theorem masked_fields (c : BitVec 12) (s : BitVec 5) (f : BitVec 3) (d : BitVec 5) (o : BitVec 7) :
    (c ++ s ++ f ++ d ++ o) &&& (0#12 ++ 0#5 ++ 7#3 ++ 0#5 ++ 0x7F#7) = 0#12 ++ 0#5 ++ f ++ 0#5 ++ o := by
  have ho : o &&& 0x7F#7 = o := by revert o; decide
  have hf : f &&& 7#3 = f := by revert f; decide
  simp only [BitVec.and_append, BitVec.and_zero, ho, hf]

/-- An instruction's word under the mask, from its `funct3` and the row's match. -/
theorem masked_row (i : Instr) (f : BitVec 3) (hf : i.funct3 = f)
    (hm : (0#12 ++ 0#5 ++ f ++ 0#5 ++ systemOpcode : BitVec 32) = rowMatch i) :
    encode i &&& 0x0000707F#32 = rowMatch i := by
  have hk : (0x0000707F#32) = (0#12 ++ 0#5 ++ 7#3 ++ 0#5 ++ 0x7F#7 : BitVec 32) := by decide
  rw [hk, ← hm, ← hf]
  exact masked_fields _ _ _ _ _

namespace Laws.TableRow

/-- The word of the instruction matches its row. -/
def Statement (i : Instr) : Prop := encode i &&& 0x0000707F#32 = rowMatch i

theorem csrrw (rd : Reg) (csr : CsrNum) (rs1 : Reg) : Statement (.csrrw rd csr rs1) :=
  masked_row _ 1 rfl (show _ = (0x00001073 : BitVec 32) by decide)

theorem csrrs (rd : Reg) (csr : CsrNum) (rs1 : Reg) : Statement (.csrrs rd csr rs1) :=
  masked_row _ 2 rfl (show _ = (0x00002073 : BitVec 32) by decide)

theorem csrrc (rd : Reg) (csr : CsrNum) (rs1 : Reg) : Statement (.csrrc rd csr rs1) :=
  masked_row _ 3 rfl (show _ = (0x00003073 : BitVec 32) by decide)

theorem csrrwi (rd : Reg) (csr : CsrNum) (uimm : Uimm) : Statement (.csrrwi rd csr uimm) :=
  masked_row _ 5 rfl (show _ = (0x00005073 : BitVec 32) by decide)

theorem csrrsi (rd : Reg) (csr : CsrNum) (uimm : Uimm) : Statement (.csrrsi rd csr uimm) :=
  masked_row _ 6 rfl (show _ = (0x00006073 : BitVec 32) by decide)

theorem csrrci (rd : Reg) (csr : CsrNum) (uimm : Uimm) : Statement (.csrrci rd csr uimm) :=
  masked_row _ 7 rfl (show _ = (0x00007073 : BitVec 32) by decide)

end Laws.TableRow

end Sys2Proof
end

