-- ==== Sys2Proof/Tests/Slice0.lean ====
section
/-! SUPPORT. The model's own tests, and for each statement of Certificates/Slice0/Obligations.lean a state and operands
that meet its hypotheses. Expected values come from spec/: the worked examples of the rules and 95_test_vectors.md. -/

namespace Sys2Proof.Tests

open Sys2Proof Sys2Proof.Machine

/-! ## Helper states -/

/-- The conventions of 95_test_vectors.md part 0: the state after reset with the state-enable bits open, at 0x1000. -/
def base : State :=
  { State.reset with mstateen0 := 1#64 <<< 60, hstateen0 := 1#64 <<< 60, hcounteren := 0xFFFFFFFF, pc := 0x1000 }

def sup (s : State) : State := { s with priv := .s }
def user (s : State) : State := { s with priv := .u }
def guest (s : State) : State := { s with priv := .s, virt := true }
def guestUser (s : State) : State := { s with priv := .u, virt := true }

/-- CDE = 1 and the counters of `en` delegated. -/
def delegating (en : Bits32) (s : State) : State := { s with menvcfg := 1#64 <<< 60, mcounteren := en }
def selecting (v : Word) (s : State) : State := { s with siselect := v }
def guestSelecting (v : Word) (s : State) : State := { s with vsiselect := v }
def inhibiting (v : Bits32) (s : State) : State := { s with mcountinhibit := v }
def hart (f : Config → Config) (s : State) : State := { s with cfg := f s.cfg }
def rv32 (s : State) : State := hart (fun c => { c with xlen := .rv32 }) s
def blockedByM (s : State) : State := { s with mstateen0 := 0 }
def blockedByH (s : State) : State := { s with hstateen0 := 0 }

/-- The next state of an outcome, when there is one and it meets the check. -/
def nextIs (check : State → Bool) (o : Host.Outcome State Fault Refusal) : Bool :=
  match o with
  | .next t => check t
  | _ => false

/-- The outcome is the refusal named. -/
def refusedAs (r : Refusal) (o : Host.Outcome State Fault Refusal) : Bool :=
  match o with
  | .refused q => q == r
  | _ => false

/-! ## Decoding: words written out field by field from 30_encoding.md R86, R87 (csr, rs1 or uimm, funct3, rd, opcode) -/

theorem test_decode_csrrw :
    decodeWord (0b000101010000#12 ++ 0b00110#5 ++ 0b001#3 ++ 0b00000#5 ++ 0b1110011#7) = .ok (.csrrw 0 0x150 6) := by decide

theorem test_decode_csrrs :
    decodeWord (0b000101010001#12 ++ 0b00000#5 ++ 0b010#3 ++ 0b01000#5 ++ 0b1110011#7) = .ok (.csrrs 8 0x151 0) := by decide

theorem test_decode_csrrc :
    decodeWord (0b000101010010#12 ++ 0b01010#5 ++ 0b011#3 ++ 0b00000#5 ++ 0b1110011#7) = .ok (.csrrc 0 0x152 10) := by decide

theorem test_decode_csrrwi :
    decodeWord (0b000100100000#12 ++ 0b00000#5 ++ 0b101#3 ++ 0b00000#5 ++ 0b1110011#7) = .ok (.csrrwi 0 0x120 0) := by decide

theorem test_decode_csrrsi :
    decodeWord (0b000100100000#12 ++ 0b00101#5 ++ 0b110#3 ++ 0b00111#5 ++ 0b1110011#7) = .ok (.csrrsi 7 0x120 5) := by decide

theorem test_decode_csrrci :
    decodeWord (0b000100100000#12 ++ 0b11111#5 ++ 0b111#3 ++ 0b00000#5 ++ 0b1110011#7) = .ok (.csrrci 0 0x120 31) := by decide

/-- Every field at its top value. -/
theorem test_decode_all_ones :
    decodeWord (0b111111111111#12 ++ 0b11111#5 ++ 0b001#3 ++ 0b11111#5 ++ 0b1110011#7) = .ok (.csrrw 31 0xFFF 31) := by decide

/-- `funct3` = 000 is ECALL and its like, 100 is no CSR instruction, 0x13 is not SYSTEM (R85, R87). -/
theorem test_decode_rejects :
    decodeWord 0x00000073 = .error .systemNotCsr ∧ decodeWord 0x15034073 = .error .systemNotCsr ∧
    decodeWord 0x00000013 = .error .notSystem ∧ decodeWord 0x00000001 = .error .notThirtyTwoBit ∧
    decodeWord 0x0000001F = .error .notThirtyTwoBit ∧ decode [0x73, 0x10, 0x03] = .error .tooShort := by decide

/-- 20_memory.md R71: 0x15031073 is stored as the bytes 73 10 03 15. -/
theorem test_bytes_of_word :
    encodeBytes (.csrrw 0 0x150 6) = [0x73, 0x10, 0x03, 0x15] ∧
    decode [0x73, 0x10, 0x03, 0x15, 0xAA] = .ok (.csrrw 0 0x150 6, [0xAA]) := by decide

theorem test_decodeTableWord :
    decodeTableWord 32 0x00001073 = some (.csrrw 0 0 0) ∧ decodeTableWord 32 0x00007073 = some (.csrrci 0 0 0) ∧
    decodeTableWord 32 0x00000073 = none := by decide

/-! ## Well-formedness: a CSR number that 10_state.md R23 does not list is refused -/

theorem test_wellFormed_listed :
    (Instr.csrrw 0 0x120 0).WellFormed = true ∧ (Instr.csrrs 0 0xC9F 0).WellFormed = true ∧
    (Instr.csrrci 0 0x73F 0).WellFormed = true := by decide

theorem test_wellFormed_refuses_unlisted :
    (Instr.csrrw 0 0x000 0).WellFormed = false ∧ (Instr.csrrs 0 0x121 0).WellFormed = false ∧
    (Instr.csrrc 0 0x720 0).WellFormed = false ∧ (Instr.csrrwi 0 0xB01 0).WellFormed = false ∧
    (Instr.csrrsi 0 0xB81 0).WellFormed = false ∧ (Instr.csrrci 0 0xFFF 0).WellFormed = false := by decide

/-! ## One step of each instruction -/

/-- 95_test_vectors.md A1. -/
theorem test_csrrw_counter :
    nextIs (fun t => t.reg 8 == 0x1234 && t.counter 3 == 0xFFFFFFFFFFFFFF00 && t.pc == 0x1004)
      (exec (.csrrw 8 0x151 7) (((base |> sup |> delegating 8 |> selecting 0x43 |> inhibiting 8).setCounter 3 0x1234).setReg 7
        0xFFFFFFFFFFFFFF00)) = true := by decide

/-- 95_test_vectors.md A2: `rd` = `rs1` swaps. -/
theorem test_csrrw_swaps :
    nextIs (fun t => t.reg 7 == 0x1234 && t.counter 3 == 0x55)
      (exec (.csrrw 7 0x151 7) (((base |> sup |> delegating 8 |> selecting 0x43 |> inhibiting 8).setCounter 3 0x1234).setReg 7
        0x55)) = true := by decide

/-- 44_virtualization.md R177, its own example. -/
theorem test_csrrs_scountovf :
    nextIs (fun t => t.reg 5 == 8) (exec (.csrrs 5 0xDA0 0)
      (((base |> sup |> delegating 0x18).setCounterCfg 3 (1#64 <<< 63)).setCounterCfg 5 (1#64 <<< 63))) = true := by decide

/-- 95_test_vectors.md A6: a set form with `rs1` not `x0` writes, although the register holds 0. -/
theorem test_csrrs_writes_by_number :
    nextIs (fun t => t.mcause == 2 && t.mepc == 0x1000 && t.mtval == 0xDA0322F3 && t.priv == .m)
      (exec (.csrrs 5 0xDA0 6) (base |> sup |> delegating 0x18)) = true := by decide

/-- 40_csr_instructions.md R102, its own example: OF is cleared, MINH stays. -/
theorem test_csrrc_clears_overflow :
    nextIs (fun t => t.counterCfg 3 == 0x4000000000000005) (exec (.csrrc 0 0x152 10)
      (((base |> sup |> delegating 8 |> selecting 0x43).setCounterCfg 3 0xC000000000000005).setReg 10
        0x8000000000000000)) = true := by decide

/-- 45_lcofi.md R191: clearing the number of `sip` from VS-mode clears `hvip[13]`. -/
theorem test_csrrc_guest_acknowledges :
    nextIs (fun t => t.hvip == 0 && t.mip == 0x2000) (exec (.csrrc 0 0x144 5)
      (({ base with hvien := 0x2000, hvip := 0x2000, mip := 0x2000 } |> guest).setReg 5 0x2000)) = true := by decide

/-- 95_test_vectors.md A10. -/
theorem test_csrrwi_scountinhibit :
    nextIs (fun t => t.reg 5 == 0xD && t.mcountinhibit == 0x10)
      (exec (.csrrwi 5 0x120 0) (base |> sup |> delegating 0xD |> inhibiting 0x1D)) = true := by decide

/-- 42_indirect_counter_access.md R150: writing 0 through the window leaves MINH set. -/
theorem test_csrrwi_keeps_minh :
    nextIs (fun t => t.counterCfg 3 == 0x4000000000000000) (exec (.csrrwi 0 0x152 0)
      ((base |> sup |> delegating 8 |> selecting 0x43).setCounterCfg 3 0x4000000000000005)) = true := by decide

/-- 40_csr_instructions.md R104, its own example. -/
theorem test_csrrsi_scountinhibit :
    nextIs (fun t => t.reg 7 == 0 && t.mcountinhibit == 0x15)
      (exec (.csrrsi 7 0x120 5) (base |> sup |> delegating 0xD |> inhibiting 0x10)) = true := by decide

/-- 43_scountinhibit.md R163: with CDE = 0 the access raises in M-mode too. -/
theorem test_csrrsi_without_cde :
    nextIs (fun t => t.mcause == 2 && t.reg 7 == 0) (exec (.csrrsi 7 0x120 0) base) = true := by decide

/-- 40_csr_instructions.md R105, its own example. -/
theorem test_csrrci_scountinhibit :
    nextIs (fun t => t.mcountinhibit == 0xE0)
      (exec (.csrrci 0 0x120 31) (base |> sup |> delegating 0x1D |> inhibiting 0xFD)) = true := by decide

/-- 42_indirect_counter_access.md R151, its own example, by a pure read. -/
theorem test_csrrci_reads_high_half :
    nextIs (fun t => t.reg 9 == 0x20000000 && t.counterCfg 0 == 0x6000000000000000) (exec (.csrrci 9 0x156 0)
      ((base |> rv32 |> sup |> delegating 1 |> selecting 0x40).setCounterCfg 0 0x6000000000000000)) = true := by decide

/-! ## The step -/

/-- The instruction placed at the reset vector is the first one run. -/
theorem test_step_runs_placed :
    nextIs (fun t => t.pc == 4 && t.siselect == 3) (step (State.reset.withFetchWord 32 0x1501D073)) = true := by decide

/-- 60_exceptions.md R206, R207: a pending and enabled LCOFI comes before the instruction. -/
theorem test_step_takes_lcofi :
    nextIs (fun t => t.mepc == 0x1000 && t.mcause == 0x800000000000000D && t.pc == 0x2034 && t.priv == .m)
      (step ({ base with mip := 0x2000, mie := 0x2000, mtvec := 0x2001 } |> sup)) = true := by decide

/-- 70_reset_and_hazards.md R238: `minstret` wraps to 0 over a retired instruction, and sets no OF. -/
theorem test_step_counts_retired :
    nextIs (fun t => t.counter 2 == 0 && t.counterCfg 2 == 0)
      (step ((base.setCounter 2 0xFFFFFFFFFFFFFFFF).withFetchWord 32 0x1501D073)) = true := by decide

/-- 20_memory.md R72 and R70: a misaligned `pc`, and memory with no byte. -/
theorem test_step_stops :
    refusedAs .fetchMisaligned (step { base with pc := 0x1002 }) = true ∧
    (match step base with | .fault f => f == .fetchNoByte | _ => false) = true := by decide

/-! ## Witnesses: the hypotheses of each statement, met together by a concrete state and operands -/

/-- The next state exists. -/
def completes (o : Host.Outcome State Fault Refusal) : Bool := nextIs (fun _ => true) o

/-- A state of S-mode with `csrrwi x0, siselect, 3` at `pc`. -/
def running : State := (base |> sup).withFetchWord 32 0x1501D073

theorem witness_StepKeepsInvariant : running.Inv ∧ completes (step running) = true :=
  ⟨⟨by decide, by decide, by decide, by decide, by decide, by decide, by decide⟩, by decide⟩

theorem witness_StepKeepsParametersAndMemory : completes (step running) = true := by decide

theorem witness_EncodeOfDecodeIsTheWord : decodeWord 0xC9FFF073 = .ok (.csrrci 0 0xC9F 31) := by decide

theorem witness_DecoderFollowsTheOpcodeTable :
    (0xFFFFF0F3 : BitVec 32) &&& 0x0000707F = 0x00007073 ∧ (0x00004073 : BitVec 32) &&& 0x0000707F ≠ 0x00007073 ∧
    decodeWord 0x00004073 = .error .systemNotCsr := by decide

theorem witness_CsrNumbersFollowTheTable :
    (3 ≤ (3 : CounterIx).val ∧ Csr.ofNumber 0x323 = some (.config 3 .low)) ∧
    (3 ≤ (31 : CounterIx).val ∧ Csr.ofNumber 0x73F = some (.config 31 .high)) ∧
    ((0 : CounterIx) ≠ 1 ∧ Csr.ofNumber 0xB00 = some (.counter 0 .low)) ∧
    ((2 : CounterIx) ≠ 1 ∧ Csr.ofNumber 0xB02 = some (.counter 2 .low)) ∧
    ((31 : CounterIx) ≠ 1 ∧ Csr.ofNumber 0xB9F = some (.counter 31 .high)) ∧
    Csr.ofNumber 0xC01 = some (.userCounter 1 .low) ∧ Csr.ofNumber 0xC80 = some (.userCounter 0 .high) := by decide

theorem witness_StepRunsTheDecodedInstruction :
    running.lcofiTaken = none ∧ running.pc.toNat % 4 = 0 ∧
    Memory.readBytes running.mem running.pc.toNat 4 = some [0x73, 0xD0, 0x01, 0x15] ∧
    decode [0x73, 0xD0, 0x01, 0x15] = .ok (.csrrwi 0 0x150 3, []) := by decide

theorem witness_PlacedInstructionIsRunNext : base.lcofiTaken = none ∧ base.pc.toNat % 4 = 0 := by decide

theorem witness_FetchStopsByName :
    ({ base with pc := 0x1001 } : State).lcofiTaken = none ∧ ({ base with pc := 0x1001 } : State).pc.toNat % 4 ≠ 0 ∧
    base.lcofiTaken = none ∧ base.pc.toNat % 4 = 0 ∧ Memory.readBytes base.mem base.pc.toNat 4 = none ∧
    (base.withFetchWord 32 0x00000073).lcofiTaken = none ∧
    Memory.readBytes (base.withFetchWord 32 0x00000073).mem 0x1000 4 = some [0x73, 0, 0, 0] ∧
    decode [0x73, 0, 0, 0] = .error .systemNotCsr := by decide

theorem witness_CsrrwCompletes :
    Csr.ofNumber 0x150 = some .siselect ∧ (base |> sup).permission 0x150 .siselect true = none ∧
    (base |> sup).resolve .siselect = .reach .siselect ∧ (base |> sup).pcInRange ∧
    (base |> user).access 0x150 true = .raise .illegal := by decide

theorem witness_CsrrsCompletes :
    Csr.ofNumber 0xDA0 = some .scountovf ∧ (base |> sup).permission 0xDA0 .scountovf ((0 : Reg) != 0) = none ∧
    (base |> sup).resolve .scountovf = .reach .scountovf ∧ (base |> sup).pcInRange ∧
    (base |> sup).access 0xDA0 ((1 : Reg) != 0) = .raise .illegal := by decide

theorem witness_CsrrcCompletes :
    Csr.ofNumber 0x344 = some .mip ∧ base.permission 0x344 .mip ((31 : Reg) != 0) = none ∧
    base.resolve .mip = .reach .mip ∧ base.pcInRange ∧
    (base |> sup).access 0x344 ((0 : Reg) != 0) = .raise .illegal := by decide

theorem witness_CsrrwiCompletes :
    Csr.ofNumber 0x606 = some .hcounteren ∧ (base |> sup).permission 0x606 .hcounteren true = none ∧
    (base |> sup).resolve .hcounteren = .reach .hcounteren ∧ (base |> sup).pcInRange ∧
    (base |> guest).access 0x606 true = .raise .virtual := by decide

theorem witness_CsrrsiCompletes :
    Csr.ofNumber 0xC02 = some (.userCounter 2 .low) ∧
    ({ base with mcounteren := 4, scounteren := 4 } |> user).permission 0xC02 (.userCounter 2 .low) ((0 : Uimm) != 0) = none ∧
    base.resolve (.userCounter 2 .low) = .reach (.counter 2 .low) ∧ (base |> user).pcInRange ∧
    ({ base with mcounteren := 4 } |> user).access 0xC02 ((0 : Uimm) != 0) = .raise .illegal := by decide

theorem witness_CsrrciCompletes :
    Csr.ofNumber 0x152 = some (.sireg .reg2) ∧
    (base |> delegating 0x80000000 |> selecting 0x5F).permission 0x152 (.sireg .reg2) ((31 : Uimm) != 0) = none ∧
    (base |> delegating 0x80000000 |> selecting 0x5F).resolve (.sireg .reg2) = .reach (.config 31 .low true) ∧
    base.pcInRange ∧ (base |> selecting 0x5F).access 0x152 ((31 : Uimm) != 0) = .raise .illegal := by decide

theorem witness_AccessDecidesTheOutcome :
    (base |> user).access (Instr.csrrw 0 0x150 1).csrNum (wantsWrite (.csrrw 0 0x150 1)) = .raise .illegal ∧
    base.access (Instr.csrrw 0 0x000 1).csrNum (wantsWrite (.csrrw 0 0x000 1)) = .refuse .csrNumberOutOfScope ∧
    ({ base with pc := 0xFFFFFFFFFFFFFFFC } : State).access (Instr.csrrs 1 0x150 0).csrNum
      (wantsWrite (.csrrs 1 0x150 0)) = .reach .siselect ∧
    ¬ ({ base with pc := 0xFFFFFFFFFFFFFFFC } : State).pcInRange ∧
    ¬ ({ (rv32 base) with pc := 0xFFFFFFFC } : State).pcInRange := by decide

theorem witness_CompletedInstructionFrame :
    (base |> sup).access (Instr.csrrw 5 0x150 1).csrNum (wantsWrite (.csrrw 5 0x150 1)) = .reach .siselect ∧
    completes (exec (.csrrw 5 0x150 1) (base |> sup)) = true ∧ wantsWrite (.csrrs 0 0x150 0) = false := by decide

theorem witness_DestinationX0IsDiscarded :
    (Instr.csrrw 0 0x150 1).rd = 0 ∧ completes (exec (.csrrw 0 0x150 1) (base |> sup)) = true := by decide

theorem witness_ExistencePrivilegeAndReadOnlyChecks :
    (names (.csrrs 1 0x321 0) (.config 0 .low) ∧
      (base |> hart fun c => { c with hasSmcntrpmf := false }).csrExists (.config 0 .low) = false) ∧
    (names (.csrrs 1 0xB00 0) (.counter 0 .low) ∧ level 0xB00 = .machine ∧ (base |> sup).mode ≠ .m) ∧
    (names (.csrrs 1 0x150 0) .siselect ∧ (base |> user).mode = .u ∧ level 0x150 = .supervisor) ∧
    (names (.csrrs 1 0x606 0) .hcounteren ∧ (base |> user).mode = .u ∧ level 0x606 = .hypervisor) ∧
    (names (.csrrsi 1 0xC00 1) (.userCounter 0 .low) ∧ wantsWrite (.csrrsi 1 0xC00 1) = true ∧
      readOnlyNumber 0xC00 = true) ∧
    (names (.csrrs 1 0x60C 0) (.hstateen0 .low) ∧ (base |> guest).csrExists (.hstateen0 .low) = true ∧
      (base |> guest).mode = .vs ∧ (rv32 (base |> guest)).csrExists (.hstateen0 .high) = true) ∧
    (names (.csrrs 1 0x244 0) .vsip ∧ (base |> guestUser).csrExists .vsip = true ∧ (base |> guestUser).mode = .vu) ∧
    (names (.csrrs 1 0x106 0) .scounteren ∧ (base |> guestUser).csrExists .scounteren = true) := by decide

/-- A hart without any optional extension, for the clauses of `AbsentNumbersRaise` at both ends of each run. -/
def bare (s : State) : State :=
  hart (fun c => { c with
    hasSmcdeleg := false, hasZicntr := false, hasZihpm := false, hasSscofpmf := false, hasSmcntrpmf := false
    hasSmstateen := false, hasH := false, hasSmaia := false, hasSsaia := false, hasSMode := false
    hasSscsrind := false }) s

theorem witness_AbsentNumbersRaise :
    base.cde = false ∧ base.cfg.xlen = .rv64 ∧ (0x250#12).toNat ≤ 0x257 ∧ 0x250 ≤ (0x257#12).toNat ∧
    names (.csrrs 1 0x154 0) .absent ∧ (base |> sup).csrExists .absent = false ∧
    ([.siselect, .sireg .reg6, .vsiselect, .vsireg .reg6, .scountovf, .scounteren, .sie, .sip, .mideleg, .vsie, .vsip,
      .hideleg, .hcounteren, .hvip, .mstateen0 .low, .hstateen0 .low, .mvien, .mvip, .hvien, .config 0 .low,
      .config 2 .low, .config 3 .high, .config 31 .high, .userCounter 0 .low, .userCounter 2 .low, .userCounter 3 .low,
      .userCounter 31 .low] : List Csr).all (fun c => !(bare base).csrExists c) = true ∧
    ([.menvcfg .high, .mstateen0 .high, .hstateen0 .high, .config 0 .high, .config 31 .high, .counter 0 .high,
      .counter 2 .high, .counter 31 .high, .userCounter 0 .high, .userCounter 31 .high] : List Csr).all
        (fun c => !base.csrExists c && (rv32 base).csrExists c) = true := by decide

theorem witness_UnlistedNumbersAreOutOfScope : (Instr.csrrs 1 0x350 0).WellFormed = false := by decide

theorem witness_StateEnableBitsBlockTheIndirectCsrs :
    (names (.csrrs 1 0x257 0) (.vsireg .reg6) ∧ names (.csrrs 1 0x150 0) .siselect ∧
      (base |> sup |> blockedByM).cfg.hasSmstateen = true ∧ (base |> sup |> blockedByM).cfg.hasSscsrind = true ∧
      (base |> sup |> blockedByM).mode ≠ .m ∧ (base |> sup |> blockedByM).mstateen0.getLsbD 60 = false) ∧
    (names (.csrrs 1 0x157 0) (.sireg .reg6) ∧ names (.csrrs 1 0x250 0) .vsiselect ∧ (base |> guest |> blockedByH).mode = .vs ∧
      (base |> guest |> blockedByH).cfg.hasH = true ∧ (base |> guest |> blockedByH).mstateen0.getLsbD 60 = true ∧
      (base |> guest |> blockedByH).hstateen0.getLsbD 60 = false) := by decide

theorem witness_SelectRegistersHoldLegalValues :
    (inWindow (((base |> sup).setReg 6 0x40).reg 6) = true ∧ (base |> sup).cfg.hasSscsrind = true ∧
      (base |> sup).stateenOpen ∧ (base |> sup).pcInRange ∧ (base |> sup).virt = false ∧ (base |> sup).priv ≠ .u ∧
      (base |> sup).cfg.hasH = true ∧ (base |> sup).cfg.hasSmcdeleg = true ∧ (base |> sup).cfg.siselectMinimum = true) ∧
    (inWindow (((base |> guest).setReg 6 0x5F).reg 6) = true ∧ (base |> guest).stateenOpen ∧ (base |> guest).virt = true ∧
      (base |> guest).priv = .s) := by decide

/-- On a hart with Smcdeleg whose legalisers keep every bit as it is, the window values 0x40 and 0x5F are held; 0x60 is
held by `siselect` where `siselectMinimum` says so, and nowhere else; without Smcdeleg neither is 0x40 by `vsiselect`
(00_scope.md R7; 10_state.md R34, R36). -/
theorem test_select_legalisers :
    let c := base.cfg
    (([0x40, 0x5F] : List Word).all fun v => selectLegal c (.mask 0) false 1 0 v == v) = true ∧
    selectLegal c (.mask 0) true 0 0 0x60 = 0x60 ∧ selectLegal c (.mask 0) false 1 0 0x60 = 0 ∧
    selectLegal c (.mask 0) true 0 0 0x1000 = 0 ∧
    selectLegal { c with hasSmcdeleg := false } (.mask 0) false 1 0 0x40 = 0 := by decide

/-- S-mode, `siselect` = `v`, the counters of `en` delegated. -/
def inWindowAt (v : Word) (en : Bits32) : State := base |> sup |> delegating en |> selecting v

/-- A hart without Smcdeleg, with the meaning the select range then has. -/
def withoutSmcdeleg (w : AbsentWindow) (s : State) : State :=
  hart (fun c => { c with hasSmcdeleg := false, absentWindow := w }) s

theorem witness_WindowExceptionList :
    (names (.csrrs 8 0x153 0) (.sireg .reg3) ∧ (inWindowAt 0x40 1).virt = false ∧ (inWindowAt 0x40 1).priv ≠ .u ∧
      (inWindowAt 0x40 1).cfg.hasSscsrind = true ∧ (inWindowAt 0x40 1).stateenOpen ∧ (inWindowAt 0x40 1).windowApplies ∧
      inWindow (trunc .rv64 (inWindowAt 0x40 1).siselect) = true) ∧
    ((withoutSmcdeleg .followsCde (inWindowAt 0x40 1)).windowApplies ∧
      (withoutSmcdeleg .followsCde (inWindowAt 0x40 1)).cde = false) ∧
    (base |> sup |> selecting 0x40).cde = false ∧
    (names (.csrrs 8 0x155 0) (.sireg .reg4) ∧ (inWindowAt 0x5F 0x80000000).cfg.xlen = .rv64) ∧
    trunc .rv64 (inWindowAt 0x41 0xFFFFFFFF).siselect = 0x41 ∧
    (windowIx (inWindowAt 0x43 5).siselect = 3 ∧ (inWindowAt 0x43 5).mcounteren.getLsbD 3 = false) ∧
    (windowIx (inWindowAt 0x42 4).siselect = 2 ∧
      (inWindowAt 0x42 4 |> hart fun c => { c with hasSmcntrpmf := false }).cfg.hasSmcntrpmf = false) ∧
    (3 ≤ (windowIx (inWindowAt 0x43 8).siselect).val ∧
      (inWindowAt 0x43 8 |> hart fun c => { c with hasZihpm := false }).cfg.hasZihpm = false) := by decide

theorem witness_DelegatedCounterIsReachedThroughTheWindow :
    (names (.csrrs 8 0x151 0) (.sireg .reg1) ∧ (inWindowAt 0x40 1).virt = false ∧ (inWindowAt 0x40 1).priv ≠ .u ∧
      (inWindowAt 0x40 1).cfg.hasSscsrind = true ∧ (inWindowAt 0x40 1).stateenOpen ∧
      inWindow (trunc .rv64 (inWindowAt 0x40 1).siselect) = true ∧ (inWindowAt 0x40 1).pcInRange ∧
      (inWindowAt 0x40 1).cde = true ∧ windowIx (inWindowAt 0x40 1).siselect = 0 ∧
      (inWindowAt 0x40 1).mcounteren.getLsbD 0 = true ∧ (inWindowAt 0x40 1).cfg.hasZicntr = true ∧
      (inWindowAt 0x40 1).cfg.hasSmcntrpmf = true) ∧
    (names (.csrrs 8 0x152 0) (.sireg .reg2) ∧ windowIx (inWindowAt 0x42 4).siselect = 2 ∧
      (inWindowAt 0x42 4).mcounteren.getLsbD 2 = true) ∧
    (names (.csrrs 8 0x155 0) (.sireg .reg4) ∧ (rv32 (inWindowAt 0x43 8)).cfg.xlen = .rv32 ∧
      inWindow (trunc .rv32 (inWindowAt 0x43 8).siselect) = true ∧ windowIx (inWindowAt 0x43 8).siselect = 3 ∧
      (rv32 (inWindowAt 0x43 8)).pcInRange ∧ (rv32 (inWindowAt 0x43 8)).cfg.hasZihpm = true) ∧
    (names (.csrrs 8 0x156 0) (.sireg .reg5) ∧ windowIx (inWindowAt 0x5F 0x80000000).siselect = 31 ∧
      (inWindowAt 0x5F 0x80000000).mcounteren.getLsbD 31 = true ∧
      (rv32 (inWindowAt 0x5F 0x80000000)).cfg.hasSscofpmf = true) := by decide

theorem witness_CellReadsAndWrites :
    (0 : CounterIx) ≠ 1 ∧ (2 : CounterIx) ≠ 1 ∧ (31 : CounterIx) ≠ 1 ∧ base.cfg.xlen = .rv64 ∧
    (rv32 base).cfg.xlen = .rv32 := by decide

theorem base_inv : base.Inv := ⟨by decide, by decide, by decide, by decide, by decide, by decide, by decide⟩

theorem rv32_base_inv : (rv32 base).Inv := ⟨by decide, by decide, by decide, by decide, by decide, by decide, by decide⟩

theorem witness_MinhIsHiddenAndKeptThroughTheWindow :
    base.Inv ∧ (rv32 base).Inv ∧ base.cfg.xlen = .rv64 ∧ (rv32 base).cfg.xlen = .rv32 ∧
    (3 ≤ (3 : CounterIx).val ∧ base.cfg.hasSscofpmf = true) ∧ (3 ≤ (31 : CounterIx).val) ∧
    base.cfg.hasSmcntrpmf = true ∧ base.cfg.cfgLegal.get 3 = .mask 0xFFFFFFFFFFFFFFFF ∧
    base.cfg.cfgLegal.get 2 = .mask 0x7C00000000000000 :=
  ⟨base_inv, rv32_base_inv, by decide⟩

theorem witness_OutsideTheWindowIsOutOfScope :
    (names (.csrrs 8 0x151 0) (.sireg .reg1) ∧ base.cfg.hasSscsrind = true ∧ (base |> sup).stateenOpen ∧
      (base |> sup).virt = false ∧ (base |> sup).priv ≠ .u ∧
      inWindow (trunc .rv64 (base |> sup |> selecting 0x3F).siselect) = false ∧
      inWindow (trunc .rv64 (base |> sup |> selecting 0x60).siselect) = false) ∧
    ((base |> guest).stateenOpen ∧ (base |> guest).virt = true ∧ (base |> guest).priv = .s ∧ base.cfg.hasH = true ∧
      inWindow (trunc .rv64 (base |> guest |> guestSelecting 0x60).vsiselect) = false) ∧
    (names (.csrrs 8 0x251 0) (.vsireg .reg1) ∧
      inWindow (trunc .rv64 (base |> sup |> guestSelecting 0x3F).vsiselect) = false) ∧
    ¬ (withoutSmcdeleg .outOfScope (base |> sup |> selecting 0x43)).windowApplies := by decide

theorem witness_ScountinhibitExceptions :
    (Instr.csrrs 5 0x120 0).csrNum = 0x120 ∧ base.cde = false ∧ (base |> guest |> delegating 1).cde = true ∧
    (base |> guest |> delegating 1).mode = .vs ∧ (base |> guestUser |> delegating 1).mode = .vu := by decide

theorem witness_ScountinhibitIsASupervisorRegister :
    (base |> user |> delegating 1).cde = true ∧ (base |> user |> delegating 1).mode = .u ∧
    (base |> sup |> delegating 1).cde = true ∧ (base |> sup |> delegating 1).virt = false ∧
    (base |> sup |> delegating 1).priv ≠ .u ∧ (base |> sup |> delegating 1).pcInRange := by decide

theorem witness_ScountinhibitIsAMaskedView :
    (Instr.csrrwi 5 0x120 0).csrNum = 0x120 ∧ (base |> sup |> delegating 0xD).cde = true ∧
    (base |> sup |> delegating 0xD).virt = false ∧ (base |> sup |> delegating 0xD).priv ≠ .u ∧
    (base |> sup |> delegating 0xD).pcInRange := by decide

theorem witness_VirtualizedIndirectAccessOutcomes :
    (names (.csrrs 5 0x250 0) .vsiselect ∧ base.cfg.hasSscsrind = true ∧ base.cfg.hasH = true ∧
      (base |> guest).mode = .vs ∧ (base |> guestUser).mode = .vu ∧ base.cfg.hasSmstateen = true ∧
      (base |> guest |> blockedByM).mstateen0.getLsbD 60 = false) ∧
    (names (.csrrs 5 0x257 0) (.vsireg .reg6) ∧ (base |> sup).virt = false ∧ (base |> sup).priv ≠ .u ∧
      (base |> sup).stateenOpen ∧ inWindow (trunc .rv64 (base |> sup |> guestSelecting 0x5F).vsiselect) = true ∧
      (base |> sup).pcInRange ∧ (base |> sup).windowApplies) ∧
    (names (.csrrs 5 0x151 0) (.sireg .reg1) ∧ (base |> guest).stateenOpen ∧ (base |> guest).windowApplies ∧
      inWindow (trunc .rv64 (base |> guest |> guestSelecting 0x40).vsiselect) = true ∧ base.cde = false ∧
      (base |> delegating 0).cde = true) := by decide

theorem witness_VirtualUserIndirectAccessRaises :
    names (.csrrs 5 0x150 0) .siselect ∧ names (.csrrs 5 0x157 0) (.sireg .reg6) ∧
    (base |> guestUser).cfg.hasSscsrind = true ∧ (base |> guestUser).mode = .vu ∧
    (base |> guestUser |> blockedByM).mstateen0.getLsbD 60 = false := by decide

theorem witness_ScountovfOutcomes :
    (Instr.csrrs 5 0xDA0 0).csrNum = 0xDA0 ∧ wantsWrite (.csrrs 5 0xDA0 0) = false ∧ wantsWrite (.csrrs 5 0xDA0 1) = true ∧
    (base |> hart fun c => { c with hasSscofpmf := false }).cfg.hasSscofpmf = false ∧ (base |> user).mode = .u ∧
    base.cfg.hasSscofpmf = true ∧ (base |> guestUser).mode = .vu ∧ base.cfg.hasSmcdeleg = true ∧
    (base |> guest |> delegating 8).cde = true ∧ (base |> guest).cde = false ∧ (base |> guest).mode = .vs ∧
    (base |> guest).pcInRange ∧ (base |> sup).mode = .s ∧ base.mode = .m := by decide

theorem witness_OnlyMachineModeDelegates : running.mode ≠ .m ∧ completes (step running) = true := by decide

theorem witness_UndelegatedCountersAreOutOfReach :
    (inWindowAt 0x43 8).mode ≠ .m ∧ (inWindowAt 0x43 8).delegated 4 = false ∧
    completes (exec (.csrrw 8 0x151 7) (inWindowAt 0x43 8)) = true := by decide

theorem witness_MinhIsOutOfReachBelowMachineMode :
    running.Inv ∧ running.mode ≠ .m ∧ hasInhibitBits running.cfg 3 = true ∧ hasInhibitBits running.cfg 0 = true ∧
    completes (step running) = true :=
  ⟨witness_StepKeepsInvariant.1, by decide⟩

theorem witness_GuestChangesNoCounterState :
    (base |> guest).mode = .vs ∧ completes (exec (.csrrw 0 0x150 1) (base |> guest)) = true ∧
    (base |> guestUser).mode = .vu ∧ completes (exec (.csrrs 0 0xC00 0) (base |> guestUser)) = true := by decide

theorem witness_CdeIsWrittenInMachineMode :
    (names (.csrrs 0 0x30A 5) (.menvcfg .low) ∧ (base |> sup).mode ≠ .m ∧ base.priv = .m ∧ base.virt = false ∧
      base.pcInRange ∧ base.cfg.xlen = .rv64) ∧
    (names (.csrrs 0 0x31A 5) (.menvcfg .high) ∧ (rv32 base).priv = .m ∧ (rv32 base).pcInRange ∧
      (rv32 base).cfg.xlen = .rv32) ∧
    (∀ j, j < 64 → j ≠ 60 →
      (writtenValue (.csrrs 0 0x30A 5) (base.setReg 5 (1#64 <<< 60))
        ((Target.menvcfg .low).read (base.setReg 5 (1#64 <<< 60)))).getLsbD j =
      ((Target.menvcfg .low).read (base.setReg 5 (1#64 <<< 60))).getLsbD j) := by decide

theorem witness_MachineNumbersReachTheCounters :
    (names (.csrrs 1 0xB00 0) (.counter 0 .low) ∧ base.priv = .m ∧ base.virt = false ∧ base.pcInRange) ∧
    (names (.csrrs 1 0xB9F 0) (.counter 31 .high) ∧ (rv32 base).priv = .m ∧ (rv32 base).virt = false ∧
      (rv32 base).cfg.xlen = .rv32 ∧ (rv32 base).pcInRange) ∧
    (names (.csrrs 1 0x323 0) (.config 3 .low) ∧ base.csrExists (.config 3 .low) = true ∧
      base.cfg.cfgLegal.get 3 = .mask 0xFFFFFFFFFFFFFFFF ∧ base.cfg.xlen = .rv64) ∧
    (names (.csrrs 1 0x721 0) (.config 0 .high) ∧ (rv32 base).csrExists (.config 0 .high) = true ∧
      (rv32 base).cfg.cfgLegal.get 0 = .mask 0x7C00000000000000) := by decide

theorem witness_EnableRegistersAreMaskedWrites :
    names (.csrrw 1 0x306 2) .mcounteren ∧ names (.csrrw 1 0x320 2) .mcountinhibit ∧ base.priv = .m ∧
    base.virt = false ∧ base.pcInRange ∧ names (.csrrw 1 0x106 2) .scounteren ∧ (base |> sup).priv ≠ .u ∧
    (base |> sup).cfg.hasSMode = true ∧ names (.csrrw 1 0x606 2) .hcounteren ∧ (base |> sup).cfg.hasH = true ∧
    (base |> sup).virt = false ∧ (base |> sup).pcInRange := by decide

theorem witness_StateEnableBitsAreReadAndWritten :
    (names (.csrrw 1 0x30C 2) (.mstateen0 .low) ∧ base.virt = false ∧ base.cfg.hasSmstateen = true ∧ base.pcInRange ∧
      base.cfg.xlen = .rv64 ∧ base.priv = .m) ∧
    (names (.csrrw 1 0x31C 2) (.mstateen0 .high) ∧ (rv32 base).cfg.xlen = .rv32 ∧ (rv32 base).pcInRange) ∧
    (names (.csrrw 1 0x60C 2) (.hstateen0 .low) ∧ (base |> sup).priv ≠ .u ∧ (base |> sup).cfg.hasH = true) ∧
    names (.csrrw 1 0x61C 2) (.hstateen0 .high) ∧ (rv32 (base |> sup)).pcInRange ∧ (rv32 base).priv = .m := by decide

theorem witness_UserCounterViewOutcomes :
    names (.csrrs 1 0xC00 0) (.userCounter 0 .low) ∧ names (.csrrs 1 0xC9F 0) (.userCounter 31 .high) ∧
    base.csrExists (.userCounter 0 .low) = true ∧ (rv32 base).csrExists (.userCounter 31 .high) = true ∧
    wantsWrite (.csrrw 1 0xC00 0) = true ∧ wantsWrite (.csrrs 1 0xC00 0) = false ∧
    base.pcInRange ∧ (rv32 base).pcInRange ∧ base.mode = .m ∧ (base |> sup).mode = .s ∧
    ((base |> user).mode = .u ∧ (base |> user).cfg.hasSMode = true) ∧
    (base |> guest).mode = .vs ∧ (base |> guestUser).mode = .vu ∧
    (base |> hart fun c => { c with hasSMode := false }).csrExists (.userCounter 0 .low) = true := by decide

theorem witness_UserCounterViewWithoutSupervisor :
    names (.csrrs 1 0xC01 0) (.userCounter 1 .low) ∧
    (base |> user |> hart fun c => { c with hasSMode := false }).csrExists (.userCounter 1 .low) = true ∧
    (base |> user |> hart fun c => { c with hasSMode := false }).cfg.hasSMode = false ∧
    (base |> user).mode = .u ∧ (base |> user).pcInRange := by decide

theorem witness_MachineLcofiBitsAreHeld :
    names (.csrrs 0 0x308 5) .mvien ∧ names (.csrrs 0 0x309 5) .mvip ∧ base.cfg.hasSmcdeleg = true ∧
    base.cfg.hasSscofpmf = true ∧ base.cfg.hasSmaia = true ∧ (base |> guest).mode ≠ .m ∧ base.priv = .m ∧
    base.virt = false ∧ base.pcInRange := by decide

theorem witness_HypervisorLcofiBitsAreHeld :
    names (.csrrs 0 0x608 5) .hvien ∧ names (.csrrs 0 0x645 5) .hvip ∧ base.cfg.hasSmcdeleg = true ∧
    base.cfg.hasSscofpmf = true ∧ base.cfg.hasSmaia = true ∧ base.cfg.hasSsaia = true ∧ base.cfg.hasH = true ∧
    (base |> user).mode = .u ∧ (base |> guest).mode = .vs ∧ (base |> guestUser).mode = .vu ∧
    (base |> sup).virt = false ∧ (base |> sup).priv ≠ .u ∧ (base |> sup).pcInRange := by decide

theorem witness_OptionalDelegationBits :
    names (.csrrw 0 0x303 5) .mideleg ∧ base.priv = .m ∧ base.virt = false ∧ base.pcInRange ∧ base.cfg.hasSMode = true ∧
    (base |> hart fun c => { c with mideleg13Writable := false }).cfg.mideleg13Writable = false ∧
    names (.csrrw 0 0x603 5) .hideleg ∧ (base |> sup).priv ≠ .u ∧ (base |> sup).cfg.hasH = true ∧
    (base |> hart fun c => { c with hideleg13Writable := false }).cfg.hideleg13Writable = false := by decide

/-- Bit 13 alone. -/
def lcofi : Word := 0x2000

/-- What every clause of `SupervisorLcofiViews` asks of a state. -/
def viewsApply (s : State) : Prop :=
  hasDefaultViews s.cfg = true ∧ s.virt = false ∧ s.priv ≠ .u ∧ s.cfg.hasSMode = true ∧ s.pcInRange

/-- With `mideleg[13]` = 1, with `mvien[13]` = 1 alone, and with neither. -/
theorem witness_SupervisorLcofiViews :
    names (.csrrc 0 0x144 5) .sip ∧ names (.csrrw 0 0x104 5) .sie ∧ wantsWrite (.csrrc 0 0x144 5) = true ∧
    wantsWrite (.csrrw 0 0x104 5) = true ∧
    (viewsApply { (base |> sup) with mideleg := lcofi, mip := lcofi } ∧
      ({ (base |> sup) with mideleg := lcofi, mip := lcofi } : State).midelegLcofi = true) ∧
    (viewsApply { (base |> sup) with mvien := lcofi, mvip := lcofi } ∧
      ({ (base |> sup) with mvien := lcofi, mvip := lcofi } : State).midelegLcofi = false ∧
      ({ (base |> sup) with mvien := lcofi, mvip := lcofi } : State).mvienLcofi = true) ∧
    (viewsApply base ∧ base.midelegLcofi = false ∧ base.mvienLcofi = false) := by
  unfold viewsApply
  decide

/-- What every clause of `GuestAcknowledgesItsLcofi` asks of a state. -/
def guestViewsApply (s : State) : Prop :=
  hasDefaultViews s.cfg = true ∧ s.cfg.hasH = true ∧ s.cfg.hasSMode = true ∧ s.pcInRange

/-- From VS-mode and from HS-mode: a virtual LCOFI, one delegated all the way, and one that M-mode forwards. -/
theorem witness_GuestAcknowledgesItsLcofi :
    (Instr.csrrs 1 0x104 5).csrNum = 0x104 ∧ (Instr.csrrwi 0 0x144 0).csrNum = 0x144 ∧
    (Instr.csrrs 1 0x204 5).csrNum = 0x204 ∧ (Instr.csrrwi 0 0x244 0).csrNum = 0x244 ∧
    wantsWrite (.csrrs 1 0x104 5) = true ∧ wantsWrite (.csrrwi 0 0x144 0) = true ∧
    (guestViewsApply { (base |> guest) with hvien := lcofi, hvip := lcofi } ∧
      ({ (base |> guest) with hvien := lcofi, hvip := lcofi } : State).mode = .vs ∧
      ({ (base |> guest) with hvien := lcofi, hvip := lcofi } : State).hidelegLcofi = false ∧
      ({ (base |> guest) with hvien := lcofi, hvip := lcofi } : State).hvienLcofi = true) ∧
    (guestViewsApply { (base |> guest) with hideleg := lcofi, mideleg := lcofi, mip := lcofi } ∧
      ({ (base |> guest) with hideleg := lcofi, mideleg := lcofi, mip := lcofi } : State).mode = .vs ∧
      ({ (base |> guest) with hideleg := lcofi, mideleg := lcofi, mip := lcofi } : State).hidelegLcofi = true ∧
      ({ (base |> guest) with hideleg := lcofi, mideleg := lcofi, mip := lcofi } : State).midelegLcofi = true) ∧
    (guestViewsApply { (base |> sup) with hideleg := lcofi, mvien := lcofi, mvip := lcofi } ∧
      (base |> sup).virt = false ∧ (base |> sup).priv ≠ .u ∧
      ({ (base |> sup) with hideleg := lcofi, mvien := lcofi, mvip := lcofi } : State).hidelegLcofi = true ∧
      ({ (base |> sup) with hideleg := lcofi, mvien := lcofi, mvip := lcofi } : State).midelegLcofi = false ∧
      ({ (base |> sup) with hideleg := lcofi, mvien := lcofi, mvip := lcofi } : State).mvienLcofi = true) := by
  unfold guestViewsApply
  decide

/-- A hart whose `AiaEnv` assumes no relation between the LCOFI bits. -/
def unrelated (s : State) : State := hart (fun c => { c with aiaEnv := .unconstrained 0 }) s

theorem witness_PendingAndEnableBitsAreHeld :
    ((Instr.csrrs 1 0x344 5).csrNum = 0x344 ∧ (Instr.csrrs 1 0x304 5).csrNum = 0x304 ∧ base.mode = .m ∧
      base.pcInRange) ∧
    ((Instr.csrrs 1 0x144 5).csrNum = 0x144 ∧ (Instr.csrrs 1 0x104 5).csrNum = 0x104 ∧
      hasDefaultViews (base |> sup |> unrelated).cfg = false ∧ (base |> sup |> unrelated).virt = false ∧
      (base |> sup |> unrelated).priv ≠ .u ∧ (base |> sup |> unrelated).cfg.hasSMode = true ∧
      (base |> sup |> unrelated).pcInRange) ∧
    (hasDefaultViews (base |> guest |> unrelated).cfg = false ∧ (base |> guest |> unrelated).mode = .vs ∧
      (base |> guest |> unrelated).cfg.hasSMode = true ∧ (base |> guest |> unrelated).cfg.hasH = true ∧
      (base |> guest |> unrelated).pcInRange) ∧
    ((Instr.csrrs 1 0x244 5).csrNum = 0x244 ∧ (Instr.csrrs 1 0x204 5).csrNum = 0x204 ∧
      (base |> sup |> unrelated).cfg.hasH = true) := by decide

/-- A guest whose exceptions `medeleg` and `hedeleg` delegate. -/
def delegatingTraps (m h : Word) : State := { (base |> guest) with medeleg := m, hedeleg := h }

/-- One state for each mode that takes the exception, a hart without S-mode, and one with a free `TrapEntry`. -/
theorem witness_TrapEntrySequence :
    (base.cfg.trapEntry = .standard ∧ (base |> hart fun c => { c with trapEntry := .free 0 }).cfg.trapEntry ≠ .standard) ∧
    ((delegatingTraps 0 4).priv ≠ .m ∧ (delegatingTraps 0 4).medeleg.getLsbD 2 = false) ∧
    ((delegatingTraps 0x400004 0x400000).cfg.hasSMode = true ∧ (delegatingTraps 0x400004 0x400000).priv ≠ .m ∧
      (delegatingTraps 0x400004 0x400000).medeleg.getLsbD 22 = true ∧
      (delegatingTraps 0x400004 0x400000).medeleg.getLsbD 2 = true ∧
      (delegatingTraps 0x400004 0x400000).hedeleg.getLsbD 2 = false) ∧
    ((delegatingTraps 4 4).cfg.hasSMode = true ∧ (delegatingTraps 4 4).priv ≠ .m ∧
      (delegatingTraps 4 4).medeleg.getLsbD 2 = true ∧ (delegatingTraps 4 4).virt = true ∧
      Exc.illegal ≠ .virtual ∧ (delegatingTraps 4 4).hedeleg.getLsbD 2 = true) ∧
    (base |> user |> hart fun c => { c with hasSMode := false }).cfg.hasSMode = false := by decide

theorem witness_ReturnRestoresWhatATrapSaved :
    (base |> guest).modeWf ∧ (base |> guest).priv ≠ .m ∧ (base |> guest).virt = true ∧ base.modeWf ∧
    (base |> user).modeWf ∧ (base |> user).priv ≠ .m ∧ base.cfg.trapEntry = .standard := by decide

/-- VS-mode at an access to `sireg` with `vsiselect` in the window: the step raises. -/
theorem witness_ModeChangesOnlyByTrap :
    completes (step running) = true ∧
    nextIs (fun t => t.priv == .m) (step ((base |> guest |> guestSelecting 0x43).withFetchWord 32 0x15102473)) = true := by
  decide

/-- An LCOFI pending and enabled, in U-mode. -/
def pendingLcofiState : State := { base with priv := .u, mip := 0x2000, mie := 0x2000 }

theorem witness_PendingLcofiIsTakenFirst :
    pendingLcofiState.cfg.aiaEnv = .prompt ∧ pendingLcofiState.cfg.trapEntry = .standard ∧
    pendingLcofiState.pendingLcofi = some .m ∧
    ({ pendingLcofiState with mideleg := 0x2000 } : State).pendingLcofi = some .hs ∧
    ({ pendingLcofiState with mideleg := 0x2000, hideleg := 0x2000, virt := true } : State).pendingLcofi = some .vs := by
  decide

theorem witness_LcofiRouting :
    hasDefaultViews base.cfg = true ∧ base.cfg.hasSMode = true ∧ base.cfg.hasH = true ∧
    (pendingLcofiState.priv = .u ∧ pendingLcofiState.mip.getLsbD 13 = true ∧ pendingLcofiState.mie.getLsbD 13 = true ∧
      pendingLcofiState.midelegLcofi = false) ∧
    (({ pendingLcofiState with mideleg := lcofi } : State).midelegLcofi = true ∧
      ({ pendingLcofiState with mideleg := lcofi } : State).hidelegLcofi = false) ∧
    (({ pendingLcofiState with mideleg := lcofi, hideleg := lcofi, virt := true } : State).midelegLcofi = true ∧
      ({ pendingLcofiState with mideleg := lcofi, hideleg := lcofi, virt := true } : State).hidelegLcofi = true) ∧
    (let s : State := { (base |> user) with mvien := lcofi, mvip := lcofi, sie := lcofi }
     s.priv = .u ∧ s.mip.getLsbD 13 = false ∧ s.midelegLcofi = false ∧ s.hidelegLcofi = false ∧ s.mvienLcofi = true ∧
      s.mvipLcofi = true ∧ s.sie.getLsbD 13 = true) ∧
    (let s : State := { (base |> guestUser) with hvien := lcofi, hvip := lcofi, vsie := lcofi }
     s.priv = .u ∧ s.mip.getLsbD 13 = false ∧ s.mvipLcofi = false ∧ s.hidelegLcofi = false ∧ s.virt = true ∧
      s.hvienLcofi = true ∧ s.hvipLcofi = true ∧ s.vsie.getLsbD 13 = true) := by decide

theorem witness_CounterEnvContract :
    (inhibiting 8 base).mcountinhibit.getLsbD 3 = true ∧ base.cfg.hasSscofpmf = true ∧ base.cfg.hasSmcntrpmf = true ∧
    (base.mode = .m ∧ ((base.setCounterCfg 3 (1#64 <<< 62)).counterCfg 3).getLsbD 62 = true) ∧
    ((base |> sup).mode = .s ∧ ((base.setCounterCfg 0 (1#64 <<< 61)).counterCfg 0).getLsbD 61 = true) ∧
    ((base |> user).mode = .u ∧ ((base.setCounterCfg 2 (1#64 <<< 60)).counterCfg 2).getLsbD 60 = true) ∧
    ((base |> guest).mode = .vs ∧ ((base.setCounterCfg 31 (1#64 <<< 59)).counterCfg 31).getLsbD 59 = true) ∧
    ((base |> guestUser).mode = .vu ∧ ((base.setCounterCfg 3 (1#64 <<< 58)).counterCfg 3).getLsbD 58 = true) ∧
    (base |> hart fun c => { c with counterWmask := c.counterWmask.set 31 0 }).cfg.counterWmask.get 31 = 0 ∧
    base.noRetirement.retired = false ∧ (base.retirement (.csrrw 0 0xB02 1)).wroteInstret = true ∧
    (base.retirement (.csrrs 1 0xB02 0)) = { retired := true, wroteInstret := false, instretRan := true } ∧
    base.mcountinhibit.getLsbD 2 = false ∧ (base.counterCfg 2).getLsbD 62 = false ∧ base.cfg.counterWmask.get 2 ≠ 0 ∧
    hasDefaultViews base.cfg = true ∧ hasDefaultViews (unrelated base).cfg = false := by decide

theorem witness_InstretCountsRetiredInstructions :
    (running.lcofiTaken = none ∧ running.fetch = .instr (.csrrwi 0 0x150 3) ∧ completes (step running) = true ∧
      running.access 0x150 true = .reach .siselect ∧ running.counterRuns 2 = true ∧
      (afterAccess (.csrrwi 0 0x150 3) .siselect running).counterRuns 2 = true) ∧
    ((base.withFetchWord 32 0xB0209073).fetch = .instr (.csrrw 0 0xB02 1) ∧
      base.access 0xB02 true = .reach (.counter 2 .low) ∧ wantsWrite (.csrrw 0 0xB02 1) = true) ∧
    ((base |> user |> (State.withFetchWord · 32 0x1501D073)).fetch = .instr (.csrrwi 0 0x150 3) ∧
      (base |> user).access 0x150 true = .raise .illegal) := by decide

end Sys2Proof.Tests
end

/-! PROOFS. The statements of 00_scope.md: a step keeps the parameters and memory; the select registers take every value. -/

namespace Sys2Proof.Machine

/-! ## The parameters and memory (00_scope.md R5, 20_memory.md R70) -/

theorem takeException_cfg_mem (e : Exc) (word : BitVec 32) (s : State) :
    (takeException e word s).cfg = s.cfg ∧ (takeException e word s).mem = s.mem := by
  obtain ⟨hcfg, -, hmem, -⟩ := enterTrap_frame (s.trapTarget e) (BitVec.ofNat 64 e.code) (s.trapValue word) none s
  exact ⟨hcfg, hmem⟩

theorem takeLcofi_cfg_mem (l : TrapTarget) (s : State) :
    (takeLcofi l s).cfg = s.cfg ∧ (takeLcofi l s).mem = s.mem := by
  obtain ⟨hcfg, -, hmem, -⟩ := enterTrap_frame l (lcofiCause s.cfg.xlen) 0 (some lcofiCode) s
  exact ⟨hcfg, hmem⟩

/-- An instruction leaves the parameters and memory, whether it completes or raises. -/
theorem exec_next_cfg_mem {i : Instr} {s t : State} (h : exec i s = .next t) : t.cfg = s.cfg ∧ t.mem = s.mem := by
  rcases exec_next_cases h with ⟨e, -, rfl⟩ | ⟨tgt, -, -, rfl⟩
  · exact takeException_cfg_mem e (encode i) s
  · obtain ⟨hcfg, -, hmem, -⟩ := afterAccess_sameOutside i tgt s
    exact ⟨hcfg, hmem⟩

/-- A step leaves the parameters and memory: neither a taken LCOFI, nor an instruction, nor the environment after it
reaches them. -/
theorem step_next_cfg_mem {s t : State} (h : step s = .next t) : t.cfg = s.cfg ∧ t.mem = s.mem := by
  rcases step_next_cases h with ⟨l, -, rfl⟩ | ⟨i, u, -, -, hu, rfl⟩
  · simpa only [environment_cfg, environment_mem] using takeLcofi_cfg_mem l s
  · simpa only [environment_cfg, environment_mem] using exec_next_cfg_mem hu

/-- Settles O4: a step leaves the list of memory cells itself, so every address reads what it read. -/
theorem stepKeepsParametersAndMemory : Obligations.StepKeepsParametersAndMemory := by
  intro s t h
  obtain ⟨hcfg, hmem⟩ := step_next_cfg_mem h
  exact ⟨hcfg, fun a => by rw [hmem]⟩

/-! ## The select registers (10_state.md R34, R36) -/

/-- `hstateen0[60]` gates no register that `mstateen0[60]` does not (40_csr_instructions.md R109). -/
theorem gatedByHstateen_of_not_gatedByMstateen {c : Csr} (h : gatedByMstateen c = false) :
    gatedByHstateen c = false := by
  cases c with
  | siselect | sireg k => cases h
  | _ => rfl

/-- In VS-mode every supervisor-level read-write register that exists is permitted, when no state-enable bit blocks it
(40_csr_instructions.md R108, R109). -/
theorem State.permission_guest {s : State} {n : CsrNum} {c : Csr} {w : Bool} (hn : Csr.ofNumber n = some c)
    (hm : s.mode = .vs) (hl : c.level = .supervisor) (hro : c.readOnly = false)
    (hst : s.stateenOpen ∨ gatedByMstateen c = false) (hex : s.csrExists c = true) :
    s.permission n c w = none := by
  have ha : c ≠ .absent := by rintro rfl; cases hex
  obtain ⟨hv, hnm, -⟩ := State.mode_of_guest (.inl hm)
  have hb : s.mstateenBlocks c = false ∧ s.hstateenBlocks c = false := by
    rcases hst with h | h
    · by_cases hse : s.cfg.hasSmstateen = true
      · obtain ⟨h1, h2⟩ := h hse hnm
        simp [State.mstateenBlocks, State.hstateenBlocks, State.hstateenView, h1, h2 hv]
      · simp [State.mstateenBlocks, State.hstateenBlocks, hse]
    · simp [State.mstateenBlocks, State.hstateenBlocks, h, gatedByHstateen_of_not_gatedByMstateen h]
  unfold State.permission
  rw [(Csr.of_number hn).2.1, (Csr.of_number hn).1 ha]
  cases c with
  | userCounter i h => cases hro
  | _ => simp [hex, hb, hl, hro, hm]

/-- From M or S mode the number of `siselect` reaches `siselect` (40_csr_instructions.md R110). -/
theorem State.access_siselect_host {s : State} {w : Bool} (hex : s.cfg.hasSscsrind = true) (hst : s.stateenOpen)
    (hv : s.virt = false) (hu : s.priv ≠ .u) : s.access 0x150 w = .reach .siselect := by
  have hn : Csr.ofNumber 0x150 = some .siselect := by decide
  have hvs : s.mode ≠ .vs := by rcases State.mode_of_host hv hu with h | h <;> simp [h]
  rw [State.access_of_permitted hn (State.permission_host hn hv hu (.inl rfl) rfl (.inl hst) hex), State.resolve,
    if_neg hvs]

/-- From VS-mode the number of `siselect` reaches `vsiselect` (44_virtualization.md R171). -/
theorem State.access_siselect_guest {s : State} {w : Bool} (hex : s.cfg.hasSscsrind = true) (hst : s.stateenOpen)
    (hm : s.mode = .vs) : s.access 0x150 w = .reach .vsiselect := by
  have hn : Csr.ofNumber 0x150 = some .siselect := by decide
  rw [State.access_of_permitted hn (State.permission_guest hn hm rfl rfl (.inl hst) hex), State.resolve, if_pos hm]

/-- From M or HS mode the number of `vsiselect` reaches `vsiselect` (40_csr_instructions.md R110). -/
theorem State.access_vsiselect_host {s : State} {w : Bool} (hex : s.cfg.hasSscsrind = true) (hH : s.cfg.hasH = true)
    (hst : s.stateenOpen) (hv : s.virt = false) (hu : s.priv ≠ .u) : s.access 0x250 w = .reach .vsiselect := by
  have hn : Csr.ofNumber 0x250 = some .vsiselect := by decide
  have hc : s.csrExists .vsiselect = true := by simp [State.csrExists, hex, hH]
  rw [State.access_of_permitted hn (State.permission_host hn hv hu (.inr rfl) rfl (.inl hst) hc), State.resolve]

/-- CSRRW over a target it reaches (40_csr_instructions.md R100): `x[rs1]` to the target, the old value to `rd`. -/
theorem exec_csrrw_of_reach {rd rs1 : Reg} {n : CsrNum} {s : State} {tgt : Target}
    (h : s.access n true = .reach tgt) (hp : s.pcInRange) :
    exec (.csrrw rd n rs1) s =
      .next { (tgt.write (s.reg rs1) s).setReg rd (tgt.read s) with pc := s.pc + 4 } := by
  have hc : Completes (.csrrw rd n rs1) s (afterAccess (.csrrw rd n rs1) tgt s) := completes_of_reach h hp
  rw [hc, afterAccess]
  simp only [wantsWrite, if_true, writtenValue, combineWrite, srcReg, State.trunc_reg, Instr.rd]

/-- Settles O26: each of the three accesses reaches its select register, and the write leaves what `selectLegal` says. -/
theorem selectRegistersHoldLegalValues : Obligations.SelectRegistersHoldLegalValues := by
  intro rd rs1 s hex hst hp
  have hlegal := fun l minimum tag old =>
    selectLegal_eq s.cfg l minimum tag old (s.reg rs1) (State.trunc_reg s rs1)
  refine ⟨fun hv hu => ?_, fun hv hs _ => ?_, fun hv hu hH => ?_⟩
  · rw [exec_csrrw_of_reach (State.access_siselect_host hex hst hv hu) hp]
    simp only [Target.write, Target.read, hlegal]
  · have hm : s.mode = .vs := by simp only [State.mode, hv, hs]
    rw [exec_csrrw_of_reach (State.access_siselect_guest hex hst hm) hp]
    simp only [Target.write, Target.read, hlegal, Bool.false_eq_true, false_and, or_false]
  · rw [exec_csrrw_of_reach (State.access_vsiselect_host hex hH hst hv hu) hp]
    simp only [Target.write, Target.read, hlegal, Bool.false_eq_true, false_and, or_false]

end Sys2Proof.Machine

/-! PROOFS. The statements of 10_state.md: the invariant and reset, the CSR numbers, `x0`, the enable registers, the
user-level counter views, the LCOFI bits that hold what is written. -/

namespace Sys2Proof.Machine

/-! ## Words under a mask, aligned addresses -/

/-- A write under the mask `m` leaves no bit outside `k` set, when neither `m` nor the old value has one there. -/
theorem maskedWrite_andNot_eq_zero {n : Nat} {m old k : BitVec n} (v : BitVec n) (hm : m &&& ~~~k = 0)
    (ho : old &&& ~~~k = 0) : ((v &&& m) ||| (old &&& ~~~m)) &&& ~~~k = 0 := by
  have hv : ~~~k &&& (v &&& m) = 0 := by rw [BitVec.and_comm, BitVec.and_assoc, hm]; exact BitVec.and_zero
  have hold : ~~~k &&& (old &&& ~~~m) = 0 := by
    rw [← BitVec.and_assoc, BitVec.and_comm (~~~k), ho]; exact BitVec.zero_and
  rw [BitVec.and_comm, BitVec.and_or_distrib_left, hv, hold]
  exact BitVec.or_zero

theorem writeBits32_andNot_eq_zero {wmask old : Bits32} (v : Word) (h : old &&& ~~~wmask = 0) :
    writeBits32 wmask old v &&& ~~~wmask = 0 :=
  maskedWrite_andNot_eq_zero _ (BitVec.and_not_self wmask) h

/-- A word is 4-byte aligned when its number is a multiple of 4. -/
theorem and_three_eq_zero_iff (w : Word) : w &&& 3 = 0 ↔ w.toNat % 4 = 0 := by
  rw [← BitVec.toNat_inj, BitVec.toNat_and]
  exact iff_of_eq (congrArg (· = 0) (Nat.and_two_pow_sub_one_eq_mod w.toNat 2))

theorem trunc_and_three_eq_zero (x : Xlen) {w : Word} (h : w &&& 3 = 0) : trunc x w &&& 3 = 0 := by
  cases x with
  | rv32 => rw [trunc, BitVec.and_assoc, BitVec.and_comm _ 3, ← BitVec.and_assoc, h]; exact BitVec.zero_and
  | rv64 => exact h

theorem add_four_and_three_eq_zero {w : Word} (h : w &&& 3 = 0) : (w + 4) &&& 3 = 0 := by
  rw [and_three_eq_zero_iff] at h ⊢
  rw [BitVec.toNat_add, show (4 : Word).toNat = 4 from rfl]
  omega

theorem vectorBase_and_three_eq_zero (tvec : Word) : vectorBase tvec &&& 3 = 0 := by
  rw [vectorBase, BitVec.and_assoc, BitVec.and_comm _ 3]
  exact BitVec.and_zero

/-- A trap enters at a 4-byte aligned `XLEN`-bit address, vectored or not (60_exceptions.md R212). -/
theorem vectorEntry_aligned (x : Xlen) (tvec : Word) (c : Option Nat) :
    vectorEntry x tvec c &&& 3 = 0 ∧ trunc x (vectorEntry x tvec c) = vectorEntry x tvec c := by
  have hbase := vectorBase_and_three_eq_zero tvec
  have hoff : ∀ code, (vectorBase tvec + BitVec.ofNat 64 (4 * code)) &&& 3 = 0 := by
    intro code
    rw [and_three_eq_zero_iff] at hbase ⊢
    rw [BitVec.toNat_add, BitVec.toNat_ofNat]
    omega
  unfold vectorEntry
  split
  · exact ⟨trunc_and_three_eq_zero x hbase, trunc_trunc _ _⟩
  · split
    · exact ⟨trunc_and_three_eq_zero x (hoff _), trunc_trunc _ _⟩
    · exact ⟨trunc_and_three_eq_zero x hbase, trunc_trunc _ _⟩

/-! ## What a write of a target keeps of the invariant -/

/-- A write through `scountinhibit` is a masked write of `mcountinhibit`, under the delegated writable bits
(43_scountinhibit.md R161). -/
theorem State.scountinhibitWrite_eq (s : State) (v : Word) :
    s.scountinhibitWrite v = writeBits32 (s.mcounteren &&& s.cfg.mcountinhibitWmask) s.mcountinhibit v := by
  unfold State.scountinhibitWrite writeBits32
  ext j hj
  simp only [BitVec.getElem_or, BitVec.getElem_and, BitVec.getElem_not]
  grind

theorem Target.write_enablesWf (tgt : Target) (v : Word) {s : State} (h : s.enablesWf) :
    (tgt.write v s).enablesWf := by
  obtain ⟨hen, hinh⟩ := h
  cases tgt with
  | mcounteren => exact ⟨writeBits32_andNot_eq_zero v hen, hinh⟩
  | mcountinhibit => exact ⟨hen, writeBits32_andNot_eq_zero v hinh⟩
  | scountinhibit =>
    refine ⟨hen, ?_⟩
    change s.scountinhibitWrite v &&& ~~~s.cfg.mcountinhibitWmask = 0
    rw [State.scountinhibitWrite_eq]
    refine maskedWrite_andNot_eq_zero _ ?_ hinh
    rw [BitVec.and_assoc, BitVec.and_not_self]
    exact BitVec.and_zero
  | _ => exact ⟨hen, hinh⟩

/-- A legaliser of a configuration register sets only bits that exist (10_state.md R29 to R31). -/
theorem cfgLegal_andNot_eq_zero {c : Config} {i : CounterIx} {old : Word} (new : Word) (hwf : legaliserWf c i = true)
    (ho : old &&& ~~~ccfgBits c i = 0) : cfgLegal c i old new &&& ~~~ccfgBits c i = 0 := by
  unfold legaliserWf at hwf
  unfold cfgLegal
  split
  · rename_i m hm
    simp only [hm, beq_iff_eq] at hwf
    exact maskedWrite_andNot_eq_zero new hwf ho
  · rw [BitVec.and_assoc, BitVec.and_not_self]
    exact BitVec.and_zero

theorem configWf_legaliserWf {c : Config} (h : configWf c = true) (i : CounterIx) : legaliserWf c i = true := by
  simp only [configWf, Bool.and_eq_true, List.all_eq_true] at h
  exact h.2 i (List.mem_finRange i)

/-- No write moves a counter hard-wired to zero (10_state.md R29). -/
theorem ctrLegal_of_hardwired {c : Config} {i : CounterIx} (old new : Word) (h : c.counterWmask.get i = 0) :
    ctrLegal c i old new = old := by
  simp only [ctrLegal, h, BitVec.ofNat_eq_ofNat, BitVec.and_zero, BitVec.not_zero, BitVec.and_allOnes, BitVec.zero_or]

theorem Target.write_countersWf (tgt : Target) (v : Word) {s : State} (hc : configWf s.cfg = true)
    (h : s.countersWf) : (tgt.write v s).countersWf := by
  intro j hj
  obtain ⟨hctr, hcfg⟩ := h j hj
  cases tgt with
  | counter i half =>
    refine ⟨fun hw => ?_, hcfg⟩
    change (s.setCounter i _).counter j = 0
    rw [State.counter_setCounter]
    split
    · rename_i e
      subst e
      exact (ctrLegal_of_hardwired _ _ hw).trans (hctr hw)
    · exact hctr hw
  | config i half hides =>
    refine ⟨hctr, ?_⟩
    change (s.setCounterCfg i _).counterCfg j &&& _ = 0
    rw [State.counterCfg_setCounterCfg]
    split
    · rename_i e
      subst e
      exact cfgLegal_andNot_eq_zero _ (configWf_legaliserWf hc j) hcfg
    · exact hcfg
  | _ => exact ⟨hctr, hcfg⟩

/-! ## The state after an access -/

theorem afterAccess_of_write {i : Instr} (tgt : Target) (s : State) (hw : wantsWrite i = true) :
    afterAccess i tgt s =
      { (tgt.write (trunc s.cfg.xlen (writtenValue i s (tgt.read s))) s).setReg i.rd (tgt.read s) with
        pc := s.pc + 4 } := by
  simp only [afterAccess, hw, if_true]

theorem afterAccess_of_read {i : Instr} (tgt : Target) (s : State) (hw : wantsWrite i = false) :
    afterAccess i tgt s = { s.setReg i.rd (tgt.read s) with pc := s.pc + 4 } := by
  simp only [afterAccess, hw, Bool.false_eq_true, if_false]

theorem afterAccess_pc (i : Instr) (tgt : Target) (s : State) : (afterAccess i tgt s).pc = s.pc + 4 := rfl

/-- The general registers after an access: `rd` alone takes the value read (10_state.md R20). -/
theorem afterAccess_x (i : Instr) (tgt : Target) (s : State) :
    (afterAccess i tgt s).x = if i.rd = 0 then s.x else s.x.set i.rd.val (tgt.read s) i.rd.isLt := by
  cases hw : wantsWrite i with
  | true =>
    obtain ⟨⟨hcfg, -⟩, hx, -⟩ := Target.write_frame tgt (trunc s.cfg.xlen (writtenValue i s (tgt.read s))) s
    rw [afterAccess_of_write tgt s hw]
    simp only [State.setReg_x, hcfg, hx, Target.trunc_read]
  | false =>
    rw [afterAccess_of_read tgt s hw]
    simp only [State.setReg_x, Target.trunc_read]

theorem afterAccess_regsWf (i : Instr) (tgt : Target) {s : State} (h : s.regsWf) : (afterAccess i tgt s).regsWf := by
  intro r
  obtain ⟨hcfg, -⟩ := afterAccess_sameOutside i tgt s
  rw [hcfg, afterAccess_x, Vector.get_eq_getElem]
  split
  · exact h r
  · rw [Vector.getElem_set]
    split
    · exact Target.trunc_read tgt s
    · exact h r

theorem afterAccess_pcWf (i : Instr) (tgt : Target) {s : State} (h : s.pcWf) (hp : s.pcInRange) :
    (afterAccess i tgt s).pcWf := by
  obtain ⟨hcfg, -⟩ := afterAccess_sameOutside i tgt s
  rw [State.pcWf, hcfg, afterAccess_pc]
  refine ⟨add_four_and_three_eq_zero h.1, trunc_of_lt _ _ ?_⟩
  rw [BitVec.toNat_add]
  exact Nat.lt_of_le_of_lt (Nat.mod_le _ _) hp

/-- An instruction that completes keeps the invariant. -/
theorem afterAccess_inv (i : Instr) (tgt : Target) {s : State} (h : s.Inv) (hp : s.pcInRange) :
    (afterAccess i tgt s).Inv := by
  obtain ⟨hcfg, -, hmem, hpriv, hvirt, -⟩ := afterAccess_sameOutside i tgt s
  refine ⟨hcfg ▸ h.config, hmem ▸ h.memory, ?_, afterAccess_pcWf i tgt h.pc hp,
    afterAccess_regsWf i tgt h.regs, ?_, ?_⟩
  · rw [State.modeWf, hcfg, hpriv, hvirt]
    exact h.mode
  · cases hw : wantsWrite i with
    | true => rw [afterAccess_of_write tgt s hw]; exact Target.write_enablesWf tgt _ h.enables
    | false => rw [afterAccess_of_read tgt s hw]; exact h.enables
  · cases hw : wantsWrite i with
    | true => rw [afterAccess_of_write tgt s hw]; exact Target.write_countersWf tgt _ h.config h.counters
    | false => rw [afterAccess_of_read tgt s hw]; exact h.counters

/-! ## Traps and the environment -/

/-- A trap into a mode the hart has leaves a mode the hart has (10_state.md R22). -/
theorem enterTrap_modeWf {l : TrapTarget} {s : State} (cause tval : Word) (c : Option Nat)
    (hs : l ≠ .m → s.cfg.hasSMode = true) (hv : l = .vs → s.cfg.hasH = true) :
    (enterTrap l cause tval c s).modeWf := by
  obtain ⟨hcfg, -⟩ := enterTrap_frame l cause tval c s
  rw [State.modeWf, hcfg]
  unfold enterTrap
  split
  · obtain ⟨hpriv, hvirt, -⟩ := standardTrapEntry_mode l cause tval c s
    rw [hpriv, hvirt]
    cases l <;> simp_all
  · obtain ⟨hpriv, hvirt, -⟩ := freeTrapEntry_mode _ cause tval s
    exact ⟨hvirt, hpriv⟩

theorem enterTrap_pcWf (l : TrapTarget) (cause tval : Word) (c : Option Nat) (s : State) :
    (enterTrap l cause tval c s).pcWf := by
  obtain ⟨hcfg, -⟩ := enterTrap_frame l cause tval c s
  rw [State.pcWf, hcfg]
  unfold enterTrap
  split
  · obtain ⟨-, -, hpc⟩ := standardTrapEntry_mode l cause tval c s
    rw [hpc]
    exact vectorEntry_aligned _ _ c
  · obtain ⟨-, -, pc, hpc⟩ := freeTrapEntry_mode _ cause tval s
    rw [hpc]
    exact ⟨trunc_and_three_eq_zero _ (vectorBase_and_three_eq_zero pc), trunc_trunc _ _⟩

/-- Taking a trap into a mode the hart has keeps the invariant. -/
theorem enterTrap_inv {l : TrapTarget} {s : State} (cause tval : Word) (c : Option Nat) (h : s.Inv)
    (hs : l ≠ .m → s.cfg.hasSMode = true) (hv : l = .vs → s.cfg.hasH = true) : (enterTrap l cause tval c s).Inv := by
  obtain ⟨hcfg, -, hmem, hx, -, -, -, hmcen, -, -, hmci, hctr, hccfg, -⟩ := enterTrap_frame l cause tval c s
  refine ⟨hcfg ▸ h.config, hmem ▸ h.memory, enterTrap_modeWf cause tval c hs hv,
    enterTrap_pcWf l cause tval c s, ?_, ?_, ?_⟩
  · rw [State.regsWf, hcfg, hx]
    exact h.regs
  · rw [State.enablesWf, hcfg, hmcen, hmci]
    exact h.enables
  · simp only [State.countersWf, State.counter, State.counterCfg, hcfg, hctr, hccfg]
    exact h.counters

/-- An exception goes to another mode than M only on a hart with S-mode, and to VS-mode only from `V` = 1
(60_exceptions.md R212). -/
theorem State.trapTarget_cases (s : State) (e : Exc) :
    s.trapTarget e = .m ∨ s.cfg.hasSMode = true ∧ (s.trapTarget e = .vs → s.virt = true) := by
  unfold State.trapTarget
  split
  · rename_i hd
    simp only [State.medelegBit, Bool.and_eq_true] at hd
    refine .inr ⟨hd.2.1, ?_⟩
    split
    · rename_i hv
      exact fun _ => (Bool.and_eq_true_iff.mp hv).1
    · exact fun h => nomatch h
  · exact .inl rfl

theorem takeException_inv (e : Exc) (word : BitVec 32) {s : State} (h : s.Inv) : (takeException e word s).Inv := by
  refine enterTrap_inv _ _ none h (fun hm => ?_) (fun hvs => ?_) <;>
    rcases State.trapTarget_cases s e with hm' | ⟨hs, hv⟩
  · exact absurd hm' hm
  · exact hs
  · rw [hm'] at hvs
    cases hvs
  · exact (h.mode.1 (hv hvs)).1

/-- An LCOFI enters only a mode that admits it (log entry 12). -/
theorem State.admitsTrapTo_of_lcofiTaken {s : State} {l : TrapTarget} (h : s.lcofiTaken = some l) :
    s.admitsTrapTo l = true := by
  have hp : s.pendingLcofi = some l := by
    unfold State.lcofiTaken at h
    split at h
    · exact h
    · cases h
  unfold State.pendingLcofi at hp
  split at hp
  · cases hp; rfl
  · split at hp
    · rename_i hhs
      cases hp
      exact (Bool.and_eq_true_iff.mp hhs).1
    · split at hp
      · rename_i hvs
        cases hp
        exact (Bool.and_eq_true_iff.mp hvs).1
      · cases hp

theorem configWf_hasSMode_of_hasH {c : Config} (h : configWf c = true) (hH : c.hasH = true) : c.hasSMode = true := by
  simp only [configWf, Bool.and_eq_true, hH, Bool.not_true, Bool.false_or] at h
  exact h.1.1.1.1.2

theorem takeLcofi_inv {l : TrapTarget} {s : State} (h : s.Inv) (hl : s.lcofiTaken = some l) : (takeLcofi l s).Inv := by
  have ha := State.admitsTrapTo_of_lcofiTaken hl
  cases l with
  | m => exact enterTrap_inv _ _ _ h (fun hm => absurd rfl hm) (fun hm => nomatch hm)
  | hs =>
    simp only [State.admitsTrapTo, Bool.and_eq_true] at ha
    exact enterTrap_inv _ _ _ h (fun _ => ha.1) (fun hm => nomatch hm)
  | vs =>
    simp only [State.admitsTrapTo, Bool.and_eq_true] at ha
    exact enterTrap_inv _ _ _ h (fun _ => configWf_hasSMode_of_hasH h.config ha.1.1) (fun _ => ha.1.1)

/-- A counter hard-wired to zero does not move (70_reset_and_hazards.md R238). -/
theorem State.counterDelta_of_hardwired (r : Retirement) {s : State} {i : CounterIx} (hi : i ≠ 1)
    (hw : s.cfg.counterWmask.get i = 0) : s.counterDelta r i = 0 := by
  simp [State.counterDelta, State.counterRuns, hi, hw]

/-- A counter that overflows moves, so it is not hard-wired to zero, and it has the OF bit: its configuration register
is one of 64 bits (10_state.md R29, R30). -/
theorem State.ccfgBits_of_overflows {r : Retirement} {s : State} {i : CounterIx} (h : s.overflows r i = true) :
    ccfgBits s.cfg i = 0xFFFFFFFFFFFFFFFF := by
  simp only [State.overflows, hasOverflowFlag, Bool.and_eq_true, decide_eq_true_eq] at h
  obtain ⟨⟨⟨hge, hof⟩, -⟩, hwrap⟩ := h
  have h0 : i ≠ 0 := by rintro rfl; exact absurd hge (by decide)
  have h1 : i ≠ 1 := by rintro rfl; exact absurd hge (by decide)
  have h2 : i ≠ 2 := by rintro rfl; exact absurd hge (by decide)
  have hw : s.cfg.counterWmask.get i ≠ 0 := by
    intro hw
    rw [State.counterDelta_of_hardwired r h1 hw] at hwrap
    exact absurd hwrap (Nat.not_le.mpr (s.counter i).isLt)
  simp only [ccfgBits, h0, h1, h2, hw, hof, or_self, if_false, Bool.true_eq_false, and_false]

theorem environment_countersWf (r : Retirement) {s : State} (h : s.countersWf) : (environment r s).countersWf := by
  intro i hi
  obtain ⟨hctr, hcfg⟩ := h i hi
  rw [environment_cfg, environment_counter, environment_counterCfg]
  refine ⟨fun hw => ?_, ?_⟩
  · rw [hctr hw, State.counterDelta_of_hardwired r hi hw]
    rfl
  · split
    · rename_i ho
      rw [State.ccfgBits_of_overflows ho]
      exact BitVec.and_zero
    · exact hcfg

theorem environment_inv (r : Retirement) {s : State} (h : s.Inv) : (environment r s).Inv := by
  refine ⟨?_, ?_, ?_, ?_, ?_, ?_, environment_countersWf r h.counters⟩
  · rw [environment_cfg]; exact h.config
  · rw [environment_mem]; exact h.memory
  · rw [State.modeWf, environment_cfg, environment_virt, environment_priv]; exact h.mode
  · rw [State.pcWf, environment_cfg, environment_pc]; exact h.pc
  · rw [State.regsWf, environment_cfg, environment_x]; exact h.regs
  · rw [State.enablesWf, environment_cfg, environment_mcounteren, environment_mcountinhibit]; exact h.enables

/-- Settles O3: each of the things a step can do keeps the invariant. -/
theorem stepKeepsInvariant : Obligations.StepKeepsInvariant := by
  intro s t h hstep
  rcases step_next_cases hstep with ⟨l, hl, rfl⟩ | ⟨i, u, -, -, hu, rfl⟩
  · exact environment_inv _ (takeLcofi_inv h hl)
  · rcases exec_next_cases hu with ⟨e, -, rfl⟩ | ⟨tgt, -, hp, rfl⟩
    · exact environment_inv _ (takeException_inv e _ h)
    · exact environment_inv _ (afterAccess_inv i tgt h hp)

/-- Settles O2: each part of the invariant is evaluated on the state after reset. -/
theorem resetMeetsInvariant : Obligations.ResetMeetsInvariant :=
  ⟨by decide, by decide, by decide, by decide, by decide, by decide, by decide⟩

/-- Settles O1: the values stand in the definition of `State.reset`. -/
theorem resetGivesTheStatedValues : Obligations.ResetGivesTheStatedValues :=
  ⟨rfl, rfl, rfl, rfl, rfl⟩

/-! ## The CSR numbers (10_state.md R23) -/

/-- The numbers of 10_state.md R23 that stand alone, with 0x154 and 0x254 of 30_encoding.md R93. -/
def Csr.singleNumbers : List Nat :=
  [0x120, 0x150, 0x151, 0x152, 0x153, 0x154, 0x155, 0x156, 0x157, 0x250, 0x251, 0x252, 0x253, 0x254, 0x255, 0x256,
    0x257, 0xDA0, 0x106, 0x104, 0x144, 0x204, 0x244, 0x306, 0x30A, 0x31A, 0x30C, 0x31C, 0x60C, 0x61C, 0x303, 0x603,
    0x606, 0x308, 0x309, 0x608, 0x645, 0x304, 0x344]

theorem Csr.ofSingle_isSome_iff (k : Nat) : (Csr.ofSingle k).isSome = true ↔ k ∈ Csr.singleNumbers := by
  have hback : ∀ k ∈ Csr.singleNumbers, (Csr.ofSingle k).isSome = true := by decide
  refine ⟨fun h => ?_, hback k⟩
  unfold Csr.ofSingle at h
  split at h
  case h_40 => cases h
  all_goals decide

/-- The seven high bits of the numbers that stand in a run of 32. -/
def Csr.runs : List Nat := [0x19, 0x39, 0x58, 0x5C, 0x60, 0x64]

/-- No number that stands alone is one of a run. -/
theorem Csr.not_mem_singleNumbers_of_run {k : Nat} (h : k / 32 ∈ Csr.runs) : k ∉ Csr.singleNumbers := by
  have hall : ∀ k ∈ Csr.singleNumbers, k / 32 ∉ Csr.runs := by decide
  exact fun hk => hall k hk h

theorem Csr.ofConfigHighRun_isSome_iff (i : CounterIx) : (Csr.ofConfigHighRun i).isSome = true ↔ i.val ≠ 0 := by
  revert i; decide

theorem Csr.ofCounterRun_isSome_iff (i : CounterIx) (h : Half) : (Csr.ofCounterRun i h).isSome = true ↔ i.val ≠ 1 := by
  cases h <;> revert i <;> decide

/-- Which numbers are known: those of a run but for its gaps, and those that stand alone. -/
theorem Csr.ofNumber_isSome_iff (n : CsrNum) : (Csr.ofNumber n).isSome = true ↔
    n.toNat ∈ Csr.singleNumbers ∨ n.toNat = 0xB00 ∨ n.toNat = 0xB80 ∨
    (0x320 ≤ n.toNat ∧ n.toNat ≤ 0x33F) ∨ (0x721 ≤ n.toNat ∧ n.toNat ≤ 0x73F) ∨
    (0xB02 ≤ n.toNat ∧ n.toNat ≤ 0xB1F) ∨ (0xB82 ≤ n.toNat ∧ n.toNat ≤ 0xB9F) ∨
    (0xC00 ≤ n.toNat ∧ n.toNat ≤ 0xC1F) ∨ (0xC80 ≤ n.toNat ∧ n.toNat ≤ 0xC9F) := by
  have hrun : (n.extractLsb' 5 7).toNat = n.toNat / 32 := by
    rw [BitVec.extractLsb'_toNat, Nat.shiftRight_eq_div_pow]
    omega
  have hix : ((n.extractLsb' 0 5).toFin : CounterIx).val = n.toNat % 32 := by
    rw [BitVec.val_toFin, BitVec.extractLsb'_toNat, Nat.shiftRight_zero]
  have hout : n.toNat / 32 ∈ Csr.runs → n.toNat ∉ Csr.singleNumbers := Csr.not_mem_singleNumbers_of_run
  unfold Csr.ofNumber
  rw [hrun]
  split
  case h_7 h19 h39 h58 h5C h60 h64 =>
    rw [Csr.ofSingle_isSome_iff]
    refine (or_iff_left ?_).symm
    simp only [imp_false] at h19 h39 h58 h5C h60 h64
    omega
  case h_2 hq =>
    simp only [Csr.ofConfigHighRun_isSome_iff, hix, hout (hq ▸ by decide), false_or]
    omega
  case h_3 hq | h_4 hq =>
    simp only [Csr.ofCounterRun_isSome_iff, hix, hout (hq ▸ by decide), false_or]
    omega
  all_goals
    exact iff_of_true rfl (.inr (by omega))

/-- Settles O9: the numbers and the runs of the table row by row, and then which numbers are known at all. -/
theorem csrNumbersFollowTheTable : Obligations.CsrNumbersFollowTheTable := by
  refine ⟨by decide, by decide, by decide, by decide, by decide, by decide, by decide, by decide, by decide,
    by decide, ?_⟩
  intro n
  rw [Csr.ofNumber_isSome_iff]
  simp only [Csr.singleNumbers, List.mem_cons, List.not_mem_nil, or_false, BitVec.ofNat_eq_ofNat, ← BitVec.toNat_inj,
    BitVec.toNat_ofNat, Nat.reducePow, Nat.reduceMod, or_assoc]

/-! ## `x0` (10_state.md R20) -/

/-- Raising an exception leaves the general registers. -/
theorem takeException_x (e : Exc) (word : BitVec 32) (s : State) : (takeException e word s).x = s.x := by
  obtain ⟨-, -, -, hx, -⟩ := enterTrap_frame (s.trapTarget e) (BitVec.ofNat 64 e.code) (s.trapValue word) none s
  exact hx

/-- Settles O21: a completed access writes no register but `rd`, and an exception writes none. -/
theorem destinationX0IsDiscarded : Obligations.DestinationX0IsDiscarded := by
  intro i s t hrd h
  refine ⟨?_, State.reg_zero t⟩
  rcases exec_next_cases h with ⟨e, -, rfl⟩ | ⟨tgt, -, -, rfl⟩
  · exact takeException_x e _ s
  · rw [afterAccess_x, if_pos hrd]

/-! ## Accesses that reach a register of the table -/

/-- In M-mode every machine-level register that exists is permitted, whatever `V` is. -/
theorem State.permission_machine_level {s : State} {n : CsrNum} {c : Csr} {w : Bool} (hn : Csr.ofNumber n = some c)
    (hm : s.mode = .m) (hl : c.level = .machine) (hex : s.csrExists c = true) : s.permission n c w = none := by
  have ha : c ≠ .absent := by rintro rfl; cases hex
  have hro : c.readOnly = false := by
    cases c with
    | scountovf | userCounter j h => cases hl
    | _ => rfl
  have hb : s.mstateenBlocks c = false := by simp [State.mstateenBlocks, hm]
  have hb2 : s.hstateenBlocks c = false := by
    cases c with
    | siselect | sireg k => cases hl
    | _ => simp [State.hstateenBlocks, gatedByHstateen]
  unfold State.permission
  rw [(Csr.of_number hn).2.1, (Csr.of_number hn).1 ha]
  cases c with
  | userCounter j h => cases hl
  | _ => simp [hex, hb, hb2, hl, hro, hm]

/-- In M-mode the number of a machine-level register reaches it. -/
theorem State.access_machine_level {s : State} {n : CsrNum} {c : Csr} {w : Bool} {tgt : Target}
    (hn : Csr.ofNumber n = some c) (hm : s.mode = .m) (hl : c.level = .machine) (hex : s.csrExists c = true)
    (hr : s.resolve c = .reach tgt) : s.access n w = .reach tgt := by
  rw [State.access_of_permitted hn (State.permission_machine_level hn hm hl hex), hr]

/-- From M or S mode the number of a supervisor or hypervisor-level register that no state-enable bit gates reaches what
`resolve` gives. -/
theorem State.access_host {s : State} {n : CsrNum} {c : Csr} {w : Bool} {tgt : Target} (hn : Csr.ofNumber n = some c)
    (hv : s.virt = false) (hu : s.priv ≠ .u) (hl : c.level = .supervisor ∨ c.level = .hypervisor)
    (hro : c.readOnly = false) (hg : gatedByMstateen c = false) (hex : s.csrExists c = true)
    (hr : s.resolve c = .reach tgt) : s.access n w = .reach tgt := by
  rw [State.access_of_permitted hn (State.permission_host hn hv hu hl hro (.inr hg) hex), hr]

/-- What holds of the state before an access and of the state a write of its target leaves holds after the access, when
the general registers and `pc` have no part in it. -/
theorem afterAccess_keeps {i : Instr} {tgt : Target} {s : State} (P : State → Prop)
    (hP : ∀ t r v, P t → P { t.setReg r v with pc := s.pc + 4 }) (hwrite : ∀ v, P (tgt.write v s)) (hread : P s) :
    P (afterAccess i tgt s) := by
  cases hw : wantsWrite i with
  | true => rw [afterAccess_of_write tgt s hw]; exact hP _ _ _ (hwrite _)
  | false => rw [afterAccess_of_read tgt s hw]; exact hP _ _ _ hread

/-! ## The counter-enable registers and `mcountinhibit` (10_state.md R26, R27, R41) -/

theorem writeBits32_getLsbD (wmask old : Bits32) (v : Word) {j : Nat} (hj : j < 32) :
    (writeBits32 wmask old v).getLsbD j = if wmask.getLsbD j then v.getLsbD j else old.getLsbD j := by
  simp only [writeBits32, BitVec.getLsbD_or, BitVec.getLsbD_and, BitVec.getLsbD_not, BitVec.getLsbD_setWidth, hj]
  cases wmask.getLsbD j <;> simp

/-- A 32-bit register after an access whose write is a masked one: `reg` is the register, `old` what it held. -/
theorem afterAccess_getLsbD_of_masked {i : Instr} {tgt : Target} {s : State} (reg : State → Bits32) {wmask old : Bits32}
    (hold : tgt.read s = old.setWidth 64)
    (hwrite : ∀ v, reg { (tgt.write v s).setReg i.rd (tgt.read s) with pc := s.pc + 4 } = writeBits32 wmask old v)
    (hread : reg { s.setReg i.rd (tgt.read s) with pc := s.pc + 4 } = old) (j : Nat) (hj : j < 32) :
    (reg (afterAccess i tgt s)).getLsbD j =
      if wantsWrite i && wmask.getLsbD j then (writtenValue i s (old.setWidth 64)).getLsbD j else old.getLsbD j := by
  have hx : j < xlenBits s.cfg.xlen := Nat.lt_of_lt_of_le hj (by cases s.cfg.xlen <;> decide)
  cases hw : wantsWrite i with
  | true =>
    rw [afterAccess_of_write tgt s hw, hwrite, writeBits32_getLsbD _ _ _ hj, trunc_getLsbD, decide_eq_true hx, hold]
    rfl
  | false =>
    rw [afterAccess_of_read tgt s hw, hread]
    rfl

/-- Settles O44: each of the four accesses reaches its register, which takes a masked write. -/
theorem enableRegistersAreMaskedWrites : Obligations.EnableRegistersAreMaskedWrites := by
  intro i s hv hp
  refine ⟨fun hn hm => ?_, fun hn hm => ?_, fun hn hu hS => ?_, fun hn hu hH => ?_⟩
  · have ha : s.access i.csrNum (wantsWrite i) = .reach .mcounteren :=
      State.access_machine_level hn (State.mode_of_machine hm) rfl rfl rfl
    exact ⟨_, completes_of_reach ha hp, afterAccess_rd i _ s,
      afterAccess_getLsbD_of_masked State.mcounteren rfl (fun _ => rfl) rfl,
      afterAccess_keeps (fun t => sameCsrs { s with mcounteren := t.mcounteren } t) (fun _ _ _ h => h)
        (fun _ => sameCsrs_refl _) (sameCsrs_refl s)⟩
  · have ha : s.access i.csrNum (wantsWrite i) = .reach .mcountinhibit :=
      State.access_machine_level hn (State.mode_of_machine hm) rfl rfl rfl
    exact ⟨_, completes_of_reach ha hp, afterAccess_rd i _ s,
      afterAccess_getLsbD_of_masked State.mcountinhibit rfl (fun _ => rfl) rfl,
      afterAccess_keeps (fun t => sameCsrs { s with mcountinhibit := t.mcountinhibit } t) (fun _ _ _ h => h)
        (fun _ => sameCsrs_refl _) (sameCsrs_refl s)⟩
  · have ha : s.access i.csrNum (wantsWrite i) = .reach .scounteren :=
      State.access_host hn hv hu (.inl rfl) rfl rfl hS rfl
    exact ⟨_, completes_of_reach ha hp, afterAccess_rd i _ s,
      afterAccess_getLsbD_of_masked State.scounteren rfl (fun _ => rfl) rfl,
      afterAccess_keeps (fun t => sameCsrs { s with scounteren := t.scounteren } t) (fun _ _ _ h => h)
        (fun _ => sameCsrs_refl _) (sameCsrs_refl s)⟩
  · have ha : s.access i.csrNum (wantsWrite i) = .reach .hcounteren :=
      State.access_host hn hv hu (.inr rfl) rfl rfl hH rfl
    exact ⟨_, completes_of_reach ha hp, afterAccess_rd i _ s,
      afterAccess_getLsbD_of_masked State.hcounteren rfl (fun _ => rfl) rfl,
      afterAccess_keeps (fun t => sameCsrs { s with hcounteren := t.hcounteren } t) (fun _ _ _ h => h)
        (fun _ => sameCsrs_refl _) (sameCsrs_refl s)⟩

/-! ## The state-enable registers (10_state.md R40) -/

/-- Where bit 60 of a 64-bit register stands in the half that holds it. -/
def enableBit : Half → Nat
  | .low => 60
  | .high => 28

section
variable {x : Xlen} {h : Half}

theorem readHalf_enableBit (hb : h = .low ↔ x = .rv64) (w : Word) :
    (readHalf x h w).getLsbD (enableBit h) = w.getLsbD 60 := by
  cases h with
  | low => rw [hb.mp rfl]; rfl
  | high => exact readHalf_high_getLsbD x w 28

theorem writeHalf_enableBit (hb : h = .low ↔ x = .rv64) (old v : Word) :
    (writeHalf x h old v).getLsbD 60 = v.getLsbD (enableBit h) := by
  cases h with
  | low => rw [hb.mp rfl]; rfl
  | high => exact writeHalf_high_getLsbD x old v 60 (by decide)

theorem trunc_enableBit (hb : h = .low ↔ x = .rv64) (v : Word) :
    (trunc x v).getLsbD (enableBit h) = v.getLsbD (enableBit h) := by
  cases h with
  | low => rw [hb.mp rfl]; rfl
  | high =>
    rw [trunc_getLsbD, decide_eq_true (by cases x <;> decide)]
    rfl

/-- The half that holds bit 60 exists on the hart (10_state.md R25). -/
theorem halfExists_of_holdsBit {c : Config} (hb : h = .low ↔ c.xlen = .rv64) : halfExists c h = true := by
  cases h with
  | low => rfl
  | high =>
    cases hx : c.xlen with
    | rv32 => simp [halfExists, hx]
    | rv64 => exact absurd (hb.mpr hx) (by decide)

end

/-- The defined bit after a write is the written one, where it is implemented. -/
theorem writeFieldHalf_getLsbD_field (c : Config) (tag : Nat) (h : Half) {bit : Nat} (impl : Bool) (old v : Word)
    (hbit : bit < 64) :
    (writeFieldHalf c tag h bit impl old v).getLsbD bit = (impl && (writeHalf c.xlen h old v).getLsbD bit) := by
  rw [writeFieldHalf, withBit_getLsbD _ _ _ _ hbit, if_pos rfl]

/-- A write of `hstateen0` reaches bit 60 while bit 60 of `mstateen0` is one, and leaves it otherwise. -/
theorem State.hstateenWrite_getLsbD_60 {s : State} {h : Half} (hb : h = .low ↔ s.cfg.xlen = .rv64) (tag : Nat)
    (v : Word) : (s.hstateenWrite tag h v).getLsbD 60 =
      if s.mstateen0.getLsbD 60 then v.getLsbD (enableBit h) else s.hstateen0.getLsbD 60 := by
  have h60 : (60 < 64) := by decide
  simp only [State.hstateenWrite, BitVec.getLsbD_or, BitVec.getLsbD_and, BitVec.getLsbD_not, h60,
    writeFieldHalf_getLsbD_field _ _ _ _ _ _ h60, writeHalf_enableBit hb, readHalf_enableBit hb]
  cases s.mstateen0.getLsbD 60 <;> simp

/-- On a 32-bit hart a write of 0x60C leaves bits 63:32 of `hstateen0`. -/
theorem State.hstateenWrite_rv32_low_getLsbD {s : State} (hx : s.cfg.xlen = .rv32) (tag : Nat) (v : Word) {j : Nat}
    (h32 : 32 ≤ j) (h64 : j < 64) : (s.hstateenWrite tag .low v).getLsbD j = s.hstateen0.getLsbD j := by
  simp only [State.hstateenWrite, BitVec.getLsbD_or, BitVec.getLsbD_and, BitVec.getLsbD_not, h64,
    writeFieldHalf_rv32_low_getLsbD hx _ _ _ _ _ h32 h64]
  cases s.mstateen0.getLsbD j <;> simp

theorem State.hstateenView_getLsbD (s : State) (j : Nat) :
    s.hstateenView.getLsbD j = (s.mstateen0.getLsbD j && s.hstateen0.getLsbD j) := by
  rw [State.hstateenView, BitVec.getLsbD_and, Bool.and_comm]

theorem State.access_mstateen0 {s : State} {n : CsrNum} {h : Half} {w : Bool} (hn : Csr.ofNumber n = some (.mstateen0 h))
    (hs : s.cfg.hasSmstateen = true) (hm : s.priv = .m) (hh : halfExists s.cfg h = true) :
    s.access n w = .reach (.mstateen0 h) :=
  State.access_machine_level hn (State.mode_of_machine hm) rfl (by simp [State.csrExists, hs, hh]) rfl

theorem State.access_hstateen0 {s : State} {n : CsrNum} {h : Half} {w : Bool} (hn : Csr.ofNumber n = some (.hstateen0 h))
    (hs : s.cfg.hasSmstateen = true) (hv : s.virt = false) (hu : s.priv ≠ .u) (hH : s.cfg.hasH = true)
    (hh : halfExists s.cfg h = true) : s.access n w = .reach (.hstateen0 h) :=
  State.access_host hn hv hu (.inr rfl) rfl rfl (by simp [State.csrExists, hs, hH, hh]) rfl

/-- What an access to `mstateen0` leaves there; no other CSR changes. -/
theorem afterAccess_mstateen0 (i : Instr) (h : Half) (s : State) :
    let t := afterAccess i (.mstateen0 h) s
    t.mstateen0 = (if wantsWrite i then writeFieldHalf s.cfg (Target.mstateen0 h).tag h 60 true s.mstateen0
        (trunc s.cfg.xlen (writtenValue i s ((Target.mstateen0 h).read s))) else s.mstateen0) ∧
      sameCsrs { s with mstateen0 := t.mstateen0 } t := by
  refine ⟨?_, afterAccess_keeps (fun t => sameCsrs { s with mstateen0 := t.mstateen0 } t) (fun _ _ _ h => h)
    (fun _ => sameCsrs_refl _) (sameCsrs_refl s)⟩
  cases hw : wantsWrite i with
  | true => rw [afterAccess_of_write _ s hw]; rfl
  | false => rw [afterAccess_of_read _ s hw]; rfl

/-- What an access to `hstateen0` leaves there; no other CSR changes. -/
theorem afterAccess_hstateen0 (i : Instr) (h : Half) (s : State) :
    let t := afterAccess i (.hstateen0 h) s
    t.hstateen0 = (if wantsWrite i then s.hstateenWrite (Target.hstateen0 h).tag h
        (trunc s.cfg.xlen (writtenValue i s ((Target.hstateen0 h).read s))) else s.hstateen0) ∧
      sameCsrs { s with hstateen0 := t.hstateen0 } t := by
  refine ⟨?_, afterAccess_keeps (fun t => sameCsrs { s with hstateen0 := t.hstateen0 } t) (fun _ _ _ h => h)
    (fun _ => sameCsrs_refl _) (sameCsrs_refl s)⟩
  cases hw : wantsWrite i with
  | true => rw [afterAccess_of_write _ s hw]; rfl
  | false => rw [afterAccess_of_read _ s hw]; rfl

/-- Settles O45: each access reaches its register, and the write leaves the bit that `writeFieldHalf` or
`hstateenWrite` says. -/
theorem stateEnableBitsAreReadAndWritten : Obligations.StateEnableBitsAreReadAndWritten := by
  intro i s h hv hs hp
  refine ⟨fun hn hm hb => ?_, fun hn hu hH hb => ?_, fun hn hm hlow => ?_, fun hn hu hH hlow => ?_⟩
  · obtain ⟨hreg, hframe⟩ := afterAccess_mstateen0 i h s
    refine ⟨_, completes_of_reach (State.access_mstateen0 hn hs hm (halfExists_of_holdsBit hb)) hp,
      readHalf_enableBit hb s.mstateen0, ?_, hframe⟩
    rw [hreg]
    split
    · rw [writeFieldHalf_getLsbD_field _ _ _ _ _ _ (by decide), writeHalf_enableBit hb, trunc_enableBit hb]
      rfl
    · rfl
  · obtain ⟨hreg, hframe⟩ := afterAccess_hstateen0 i h s
    refine ⟨_, completes_of_reach (State.access_hstateen0 hn hs hv hu hH (halfExists_of_holdsBit hb)) hp,
      (readHalf_enableBit hb s.hstateenView).trans (State.hstateenView_getLsbD s 60), ?_, hframe⟩
    rw [hreg]
    cases wantsWrite i with
    | true => simp only [if_true, State.hstateenWrite_getLsbD_60 hb, trunc_enableBit hb]; rfl
    | false => rfl
  · obtain ⟨rfl, hx⟩ := hlow
    obtain ⟨hreg, hframe⟩ := afterAccess_mstateen0 i .low s
    refine ⟨_, completes_of_reach (State.access_mstateen0 hn hs hm rfl) hp, fun j h32 h64 => ?_, hframe⟩
    rw [hreg]
    split
    · rw [writeFieldHalf_rv32_low_getLsbD hx _ _ _ _ _ h32 h64, Bool.or_true, Bool.true_and]
    · rfl
  · obtain ⟨rfl, hx⟩ := hlow
    obtain ⟨hreg, hframe⟩ := afterAccess_hstateen0 i .low s
    refine ⟨_, completes_of_reach (State.access_hstateen0 hn hs hv hu hH rfl) hp, fun j h32 h64 => ?_, hframe⟩
    rw [hreg]
    split
    · exact State.hstateenWrite_rv32_low_getLsbD hx _ _ h32 h64
    · rfl

/-! ## User-level counter views without S-mode (60_exceptions.md R220) -/

theorem State.virt_of_mode_user {s : State} (hm : s.mode = .u) : s.virt = false := by
  revert hm
  unfold State.mode
  cases s.priv <;> cases s.virt <;> simp

/-- From U-mode without S-mode a user-level counter view is permitted to a read, while `mcounteren` enables it. -/
theorem State.permission_userCounter {s : State} {n : CsrNum} {j : CounterIx} {h : Half} {w : Bool}
    (hn : Csr.ofNumber n = some (.userCounter j h)) (hex : s.csrExists (.userCounter j h) = true)
    (hS : s.cfg.hasSMode = false) (hm : s.mode = .u) :
    s.permission n (.userCounter j h) w =
      if s.mcounteren.getLsbD j.val = true ∧ w = false then none else some .illegal := by
  have hb : s.mstateenBlocks (.userCounter j h) = false := by simp [State.mstateenBlocks, gatedByMstateen]
  have hb2 : s.hstateenBlocks (.userCounter j h) = false := by simp [State.hstateenBlocks, gatedByHstateen]
  unfold State.permission
  rw [(Csr.of_number hn).2.1, (Csr.of_number hn).1 nofun]
  simp only [hex, hb, hb2, hm, State.virt_of_mode_user hm, Csr.level, Csr.readOnly, State.userCounterDenied, hS]
  cases w <;> cases s.mcounteren.getLsbD j.val <;> simp

/-- Settles O47: the permission check decides between the counter's value and an illegal instruction exception. -/
theorem userCounterViewWithoutSupervisor : Obligations.UserCounterViewWithoutSupervisor := by
  intro i s j h hn hex hS hm hp
  have hperm := State.permission_userCounter (w := wantsWrite i) hn hex hS hm
  split
  · rename_i hr
    rw [if_pos hr] at hperm
    have ha : s.access i.csrNum (wantsWrite i) = .reach (.counter j h) := State.access_of_permitted hn hperm
    have hc := completes_of_reach ha hp
    rw [afterAccess_of_read _ s hr.2] at hc
    exact hc
  · rename_i hr
    rw [if_neg hr] at hperm
    exact exec_of_raise (State.access_of_denied hn hperm)

/-! ## The LCOFI bits that hold what is written (10_state.md R47, 45_lcofi.md R193) -/

/-- Bit 13 of the target is a storage bit: `mip` and `mie` always, `sip`, `sie`, `vsip` and `vsie` where no relation
between the LCOFI bits is assumed. -/
def storesLcofi (c : Config) : Target → Bool
  | .mip | .mie => true
  | .sip | .sie | .vsip | .vsie => !hasDefaultViews c
  | _ => false

/-- The storage bit of such a target. -/
def Target.storedLcofi : Target → State → Bool
  | .mip => fun t => t.mip.getLsbD 13
  | .mie => fun t => t.mie.getLsbD 13
  | .sip => fun t => t.sip.getLsbD 13
  | .sie => fun t => t.sie.getLsbD 13
  | .vsip => fun t => t.vsip.getLsbD 13
  | .vsie => fun t => t.vsie.getLsbD 13
  | _ => fun _ => false

/-- Of the counters, the configuration registers and the interrupt registers, only the target differs. -/
def onlyInterruptRegDiffers (tgt : Target) (s t : State) : Prop :=
  (∀ j : CounterIx, t.counter j = s.counter j ∧ t.counterCfg j = s.counterCfg j) ∧
  (tgt ≠ .mip → t.mip = s.mip) ∧ (tgt ≠ .mie → t.mie = s.mie) ∧ (tgt ≠ .sip → t.sip = s.sip) ∧
  (tgt ≠ .sie → t.sie = s.sie) ∧ (tgt ≠ .vsip → t.vsip = s.vsip) ∧ (tgt ≠ .vsie → t.vsie = s.vsie) ∧
  t.mvip = s.mvip ∧ t.hvip = s.hvip ∧ t.mvien = s.mvien ∧ t.hvien = s.hvien ∧ t.mideleg = s.mideleg ∧
  t.hideleg = s.hideleg

theorem onlyInterruptRegDiffers_refl (tgt : Target) (s : State) : onlyInterruptRegDiffers tgt s s := by
  simp only [onlyInterruptRegDiffers, and_self, implies_true]

section
variable {s : State} (v : Word) (hf : hasDefaultViews s.cfg = false)
include hf

theorem Target.write_sip_storage : Target.sip.write v s =
    { s with sip := withBit (writeLcofiReg s.cfg Target.sip.tag false s.sip v) 13 (v.getLsbD 13) } := by
  simp [Target.write, State.setSipLcofi, hf]

theorem Target.write_sie_storage : Target.sie.write v s =
    { s with
      sie := withBit (withBit (writeLcofiReg s.cfg Target.sie.tag true s.sie v) 13 (s.sie.getLsbD 13)) 13
        (v.getLsbD 13) } := by
  simp [Target.write, State.setSieLcofi, hf]

theorem Target.write_vsip_storage : Target.vsip.write v s =
    { s with vsip := withBit (writeLcofiReg s.cfg Target.vsip.tag false s.vsip v) 13 (v.getLsbD 13) } := by
  simp [Target.write, State.setVsipLcofi, hf]

theorem Target.write_vsie_storage : Target.vsie.write v s =
    { s with
      vsie := withBit (withBit (writeLcofiReg s.cfg Target.vsie.tag true s.vsie v) 13 (s.vsie.getLsbD 13)) 13
        (v.getLsbD 13) } := by
  simp [Target.write, State.setVsieLcofi, hf]

end

theorem trunc_getLsbD_13 (x : Xlen) (w : Word) : (trunc x w).getLsbD 13 = w.getLsbD 13 := by
  rw [trunc_getLsbD, decide_eq_true (by cases x <;> decide), Bool.true_and]

theorem withBit_getLsbD_13 (w : Word) (b : Bool) : (withBit w 13 b).getLsbD 13 = b := by
  rw [withBit_getLsbD _ _ _ _ (by decide), if_pos rfl]

/-- The general registers and `pc` have no part in a storage bit. -/
theorem Target.storedLcofi_setReg (tgt : Target) (s : State) (r : Reg) (v pc : Word) :
    tgt.storedLcofi { s.setReg r v with pc := pc } = tgt.storedLcofi s := by
  cases tgt <;> rfl

section
variable {tgt : Target} {s : State} (h : storesLcofi s.cfg tgt = true)
include h

theorem Target.read_storedLcofi : (tgt.read s).getLsbD 13 = tgt.storedLcofi s := by
  cases tgt with
  | mip | mie => exact trunc_getLsbD_13 _ _
  | sip | sie | vsip | vsie =>
    simp only [storesLcofi, Bool.not_eq_true'] at h
    simp only [Target.read, Target.storedLcofi, trunc_getLsbD_13, withBit_getLsbD_13, State.sipLcofi, State.sieLcofi,
      State.vsipLcofi, State.vsieLcofi, h, Bool.not_false, if_true]
  | _ => cases h

/-- A write of such a target leaves the written bit in the storage bit, and of the interrupt registers writes the target
alone. -/
theorem Target.write_storedLcofi (v : Word) :
    tgt.storedLcofi (tgt.write v s) = v.getLsbD 13 ∧ onlyInterruptRegDiffers tgt s (tgt.write v s) := by
  cases tgt with
  | mip | mie => exact ⟨withBit_getLsbD_13 _ _, fun _ => ⟨rfl, rfl⟩, by simp [Target.write]⟩
  | sip | sie | vsip | vsie =>
    simp only [storesLcofi, Bool.not_eq_true'] at h
    simp only [Target.write_sip_storage v h, Target.write_sie_storage v h, Target.write_vsip_storage v h,
      Target.write_vsie_storage v h]
    exact ⟨withBit_getLsbD_13 _ _, fun _ => ⟨rfl, rfl⟩, by simp⟩
  | _ => cases h

/-- The storage bit after an access is the written one, or the one there was. -/
theorem afterAccess_storedLcofi (i : Instr) : tgt.storedLcofi (afterAccess i tgt s) =
    if wantsWrite i then (writtenValue i s (tgt.read s)).getLsbD 13 else tgt.storedLcofi s := by
  cases hw : wantsWrite i with
  | true =>
    rw [afterAccess_of_write tgt s hw, Target.storedLcofi_setReg, (Target.write_storedLcofi h _).1, trunc_getLsbD_13]
    rfl
  | false =>
    rw [afterAccess_of_read tgt s hw, Target.storedLcofi_setReg]
    rfl

/-- An access that reaches such a target completes, reads the storage bit and holds what it writes. -/
theorem storedLcofi_held {i : Instr} (ha : s.access i.csrNum (wantsWrite i) = .reach tgt) (hp : s.pcInRange) :
    let t := afterAccess i tgt s
    Completes i s t ∧ (tgt.read s).getLsbD 13 = tgt.storedLcofi s ∧
    tgt.storedLcofi t = (if wantsWrite i then (writtenValue i s (tgt.read s)).getLsbD 13 else tgt.storedLcofi s) ∧
    onlyInterruptRegDiffers tgt s t := by
  exact ⟨completes_of_reach ha hp, Target.read_storedLcofi h, afterAccess_storedLcofi h i,
    afterAccess_keeps (onlyInterruptRegDiffers tgt s) (fun _ _ _ h => h)
      (fun v => (Target.write_storedLcofi h v).2) (onlyInterruptRegDiffers_refl tgt s)⟩

end

section
variable {s : State} {w : Bool}

/-- From M or S mode the numbers of `sip` and `sie` reach them. -/
theorem State.access_supervisorLcofi_host (hS : s.cfg.hasSMode = true) (hv : s.virt = false) (hu : s.priv ≠ .u) :
    s.access 0x144 w = .reach .sip ∧ s.access 0x104 w = .reach .sie := by
  have hvs : s.mode ≠ .vs := by rcases State.mode_of_host hv hu with h | h <;> simp [h]
  have hsip : Csr.ofNumber 0x144 = some .sip := by decide
  have hsie : Csr.ofNumber 0x104 = some .sie := by decide
  exact ⟨State.access_host hsip hv hu (.inl rfl) rfl rfl hS (by rw [State.resolve, if_neg hvs]),
    State.access_host hsie hv hu (.inl rfl) rfl rfl hS (by rw [State.resolve, if_neg hvs])⟩

/-- From VS-mode the numbers of `sip` and `sie` reach `vsip` and `vsie` (45_lcofi.md R187). -/
theorem State.access_supervisorLcofi_guest (hS : s.cfg.hasSMode = true) (hm : s.mode = .vs) :
    s.access 0x144 w = .reach .vsip ∧ s.access 0x104 w = .reach .vsie := by
  have hsip : Csr.ofNumber 0x144 = some .sip := by decide
  have hsie : Csr.ofNumber 0x104 = some .sie := by decide
  rw [State.access_of_permitted hsip (State.permission_guest hsip hm rfl rfl (.inr rfl) hS),
    State.access_of_permitted hsie (State.permission_guest hsie hm rfl rfl (.inr rfl) hS), State.resolve, State.resolve,
    if_pos hm, if_pos hm]
  exact ⟨rfl, rfl⟩

/-- From M or HS mode the numbers of `vsip` and `vsie` reach them. -/
theorem State.access_guestLcofi_host (hH : s.cfg.hasH = true) (hv : s.virt = false) (hu : s.priv ≠ .u) :
    s.access 0x244 w = .reach .vsip ∧ s.access 0x204 w = .reach .vsie :=
  ⟨State.access_host (by decide : Csr.ofNumber 0x244 = some .vsip) hv hu (.inr rfl) rfl rfl hH rfl,
    State.access_host (by decide : Csr.ofNumber 0x204 = some .vsie) hv hu (.inr rfl) rfl rfl hH rfl⟩

theorem State.access_machineLcofi (hm : s.mode = .m) :
    s.access 0x344 w = .reach .mip ∧ s.access 0x304 w = .reach .mie :=
  ⟨State.access_machine_level (by decide : Csr.ofNumber 0x344 = some .mip) hm rfl rfl rfl,
    State.access_machine_level (by decide : Csr.ofNumber 0x304 = some .mie) hm rfl rfl rfl⟩

end

/-- Settles O60: each of the accesses reaches a target whose bit 13 is a storage bit. -/
theorem pendingAndEnableBitsAreHeld : Obligations.PendingAndEnableBitsAreHeld := by
  intro i s tgt bit hp free above hcases
  have hfree : free → (!hasDefaultViews s.cfg) = true := fun hf => by rw [hf]; rfl
  suffices hh : bit = tgt.storedLcofi ∧ storesLcofi s.cfg tgt = true ∧
      s.access i.csrNum (wantsWrite i) = .reach tgt by
    obtain ⟨rfl, hst, ha⟩ := hh
    exact storedLcofi_held hst ha hp
  rcases hcases with ⟨hn, hm, rfl, hb⟩ | ⟨hn, hm, rfl, hb⟩ | ⟨hn, hf, ⟨hv, hu⟩, hS, rfl, hb⟩ |
    ⟨hn, hf, ⟨hv, hu⟩, hS, rfl, hb⟩ | ⟨⟨hn, hm, hS⟩ | ⟨hn, hv, hu⟩, hf, hH, rfl, hb⟩ |
    ⟨⟨hn, hm, hS⟩ | ⟨hn, hv, hu⟩, hf, hH, rfl, hb⟩ <;> rw [hn]
  · exact ⟨hb, rfl, (State.access_machineLcofi hm).1⟩
  · exact ⟨hb, rfl, (State.access_machineLcofi hm).2⟩
  · exact ⟨hb, hfree hf, (State.access_supervisorLcofi_host hS hv hu).1⟩
  · exact ⟨hb, hfree hf, (State.access_supervisorLcofi_host hS hv hu).2⟩
  · exact ⟨hb, hfree hf, (State.access_supervisorLcofi_guest hS hm).1⟩
  · exact ⟨hb, hfree hf, (State.access_guestLcofi_host hH hv hu).1⟩
  · exact ⟨hb, hfree hf, (State.access_supervisorLcofi_guest hS hm).2⟩
  · exact ⟨hb, hfree hf, (State.access_guestLcofi_host hH hv hu).2⟩

end Sys2Proof.Machine

/-! PROOFS. The statements of 20_memory.md: the instruction a step fetches, the one placed at `pc`, and the names under
which a fetch stops. -/

namespace Sys2Proof

/-! ## The decoder reads back what was encoded (30_encoding.md R85 to R88) -/

/-- The bits of an instruction that say it is 32 bits long (30_encoding.md R85). -/
theorem encode_length_bits (i : Instr) :
    (encode i).extractLsb' 0 2 = 3#2 ∧ (encode i).extractLsb' 2 3 ≠ 7#3 := by
  have hsub : ∀ a b, a + b ≤ 7 → (encode i).extractLsb' a b = systemOpcode.extractLsb' a b := by
    intro a b hab
    rw [← encode_opcode i, BitVec.extractLsb'_extractLsb'_of_le hab]
  rw [hsub 0 2 (by decide), hsub 2 3 (by decide)]
  decide

/-- The word of an instruction is decoded to it: each field is read where `encode` puts it. -/
theorem decodeWord_encode (i : Instr) : decodeWord (encode i) = .ok i := by
  obtain ⟨hlow, hlong⟩ := encode_length_bits i
  unfold decodeWord
  simp only [encode_csr, encode_src, encode_funct3, encode_rd, encode_opcode, hlow, bne_self_eq_false,
    beq_eq_false_iff_ne.mpr hlong, Bool.or_self, Bool.false_eq_true, if_false, regOfBits_bitsOfReg]
  cases i <;> rfl

/-- Decoding the bytes of a word, whatever follows them, is decoding the word (20_memory.md R71). -/
theorem decode_bytesOfWord_append (w : BitVec 32) (rest : List Byte) :
    decode (bytesOfWord w ++ rest) = (decodeWord w).map fun i => (i, rest) := by
  change (decodeWord (wordOfBytes _ _ _ _)).map (fun i => (i, rest)) = _
  rw [wordOfBytes_bytesOfWord]

theorem decode_encodeBytes_append (i : Instr) (rest : List Byte) : decode (encodeBytes i ++ rest) = .ok (i, rest) := by
  rw [encodeBytes, decode_bytesOfWord_append, decodeWord_encode]
  rfl

end Sys2Proof

namespace Sys2Proof.Machine

/-! ## Memory outside the bytes stored -/

theorem Memory.read_writeBytes_outside (bytes : List Byte) (m : Memory) {a b : Nat}
    (h : b < a ∨ a + bytes.length ≤ b) : Memory.read (Memory.writeBytes m a bytes) b = Memory.read m b := by
  induction bytes generalizing m a with
  | nil => rfl
  | cons c rest ih =>
    rw [List.length_cons] at h
    rw [Memory.writeBytes, ih (Memory.write m a c) (by omega), Memory.read_write, if_neg (by omega)]

/-! ## What a fetch answers (20_memory.md R70 to R72) -/

theorem State.fetch_misaligned {s : State} (h : s.pc.toNat % 4 ≠ 0) : s.fetch = .refuse .fetchMisaligned := by
  rw [State.fetch, if_pos h]

section
variable {s : State} (h : s.pc.toNat % 4 = 0)
include h

theorem State.fetch_noByte (hb : Memory.readBytes s.mem s.pc.toNat 4 = none) : s.fetch = .fault .fetchNoByte := by
  rw [State.fetch, if_neg (not_not.mpr h), hb]

theorem State.fetch_decoded {bytes rest : List Byte} {i : Instr}
    (hb : Memory.readBytes s.mem s.pc.toNat 4 = some bytes) (hd : decode bytes = .ok (i, rest)) :
    s.fetch = .instr i := by
  simp only [State.fetch, if_neg (not_not.mpr h), hb, hd]

theorem State.fetch_rejected {bytes : List Byte} {why : Reject}
    (hb : Memory.readBytes s.mem s.pc.toNat 4 = some bytes) (hd : decode bytes = .error why) :
    s.fetch = .refuse (.notCsrInstruction why) := by
  simp only [State.fetch, if_neg (not_not.mpr h), hb, hd]

/-- An instruction whose word is placed at an aligned `pc` is fetched from there. -/
theorem State.fetch_placeWord_encode (i : Instr) : (s.placeWord (encode i)).fetch = .instr i := by
  have hd : decode (encodeBytes i) = .ok (i, []) := by
    simpa only [List.append_nil] using decode_encodeBytes_append i []
  have hb := Memory.readBytes_writeBytes (encodeBytes i) s.mem s.pc.toNat
  exact State.fetch_decoded (s := s.placeWord (encode i)) h hb hd

end

/-- A word of 32 bits goes into `withFetchWord` as it is. -/
theorem State.withFetchWord_toNat (s : State) (w : BitVec 32) : s.withFetchWord 32 w.toNat = s.placeWord w := by
  rw [State.withFetchWord, Nat.mod_eq_of_lt w.isLt, BitVec.ofNat_toNat, BitVec.setWidth_eq]

/-- Memory has no part in whether an LCOFI is taken (60_exceptions.md R206, R207). -/
theorem State.lcofiTaken_placeWord (s : State) (w : BitVec 32) : (s.placeWord w).lcofiTaken = s.lcofiTaken := rfl

/-! ## The step when no LCOFI is taken -/

section
variable {s : State} (hl : s.lcofiTaken = none)
include hl

theorem step_eq_runInstr : step s = runInstr s := by
  rw [step, hl]

theorem step_of_fetch_fault {f : Fault} (hf : s.fetch = .fault f) : step s = .fault f := by
  rw [step_eq_runInstr hl, runInstr, hf]

theorem step_of_fetch_refuse {r : Refusal} (hf : s.fetch = .refuse r) : step s = .refused r := by
  rw [step_eq_runInstr hl, runInstr, hf]

/-- A fetched instruction runs, and the environment acts on the state it leaves (70_reset_and_hazards.md R238). -/
theorem step_of_fetch_instr {i : Instr} (hf : s.fetch = .instr i) :
    step s = match exec i s with
      | .next t => .next (environment (s.retirement i) t)
      | .fault f => .fault f
      | .refused r => .refused r := by
  cases he : exec i s <;> simp only [step_eq_runInstr hl, runInstr, hf, he]

end

/-- Settles O10: the fetch answers the decoded instruction, which the step runs. -/
theorem stepRunsTheDecodedInstruction : Obligations.StepRunsTheDecodedInstruction := by
  intro s bytes rest i hl hpc hb hd
  exact step_of_fetch_instr hl (State.fetch_decoded hpc hb hd)

/-- Settles O11: the placed bytes are the ones fetched, decoding gives back what was encoded, and neither `pc` nor the
taking of an LCOFI looks at memory. -/
theorem placedInstructionIsRunNext : Obligations.PlacedInstructionIsRunNext := by
  intro s i hl hpc
  rw [State.withFetchWord_toNat]
  refine ⟨fun a ha => ?_, ?_⟩
  · exact Memory.read_writeBytes_outside (encodeBytes i) s.mem ha
  · have htaken : (s.placeWord (encode i)).lcofiTaken = none := (s.lcofiTaken_placeWord (encode i)).trans hl
    exact step_of_fetch_instr htaken (State.fetch_placeWord_encode hpc i)

/-- Settles O12: each of the three ways a fetch gives no instruction is what the step answers. -/
theorem fetchStopsByName : Obligations.FetchStopsByName := by
  intro s hl
  refine ⟨fun hpc => ?_, fun hpc hb => ?_, fun bytes why hpc hb hd => ?_⟩
  · exact step_of_fetch_refuse hl (State.fetch_misaligned hpc)
  · exact step_of_fetch_fault hl (State.fetch_noByte hpc hb)
  · exact step_of_fetch_refuse hl (State.fetch_rejected hpc hb hd)

end Sys2Proof.Machine

/-! PROOFS. The statements of 30_encoding.md: the two round trips of the encoding, the opcode table, the CSR numbers that
name no register on this hart, and the numbers the spec does not list. -/

namespace Sys2Proof

/-! ## A word from its fields (30_encoding.md R86, R87) -/

/-- A word is its five fields put together again (30_encoding.md R86). -/
theorem append_fields (w : BitVec 32) :
    w.extractLsb' 20 12 ++ w.extractLsb' 15 5 ++ w.extractLsb' 12 3 ++ w.extractLsb' 7 5 ++ w.extractLsb' 0 7 = w := by
  ext i hi
  rw [← BitVec.getLsbD_eq_getElem]
  simp only [BitVec.getLsbD_append, BitVec.getLsbD_extractLsb']
  grind

/-- The instruction of the same row as `i` with the operands that stand in the fields of `w` (30_encoding.md R86). -/
def Instr.withOperandsOf (i : Instr) (w : BitVec 32) : Instr :=
  let rd := regOfBits (w.extractLsb' 7 5)
  let csr := w.extractLsb' 20 12
  let src := w.extractLsb' 15 5
  match i with
  | .csrrw _ _ _ => .csrrw rd csr (regOfBits src)
  | .csrrs _ _ _ => .csrrs rd csr (regOfBits src)
  | .csrrc _ _ _ => .csrrc rd csr (regOfBits src)
  | .csrrwi _ _ _ => .csrrwi rd csr src
  | .csrrsi _ _ _ => .csrrsi rd csr src
  | .csrrci _ _ _ => .csrrci rd csr src

/-- Encoding it gives the word back, when the word has the opcode and the `funct3` of the row. -/
theorem encode_withOperandsOf {i : Instr} {w : BitVec 32} (hop : w.extractLsb' 0 7 = systemOpcode)
    (hf : w.extractLsb' 12 3 = i.funct3) : encode (i.withOperandsOf w) = w := by
  refine Eq.trans ?_ (append_fields w)
  rw [hop, hf]
  cases i <;> rfl

/-- What a word that decodes looks like: the SYSTEM opcode, the `funct3` of the instruction, and its operands in their
fields. -/
theorem decodeWord_ok_fields {w : BitVec 32} {i : Instr} (h : decodeWord w = .ok i) :
    w.extractLsb' 0 7 = systemOpcode ∧ w.extractLsb' 12 3 = i.funct3 ∧ i.withOperandsOf w = i := by
  unfold decodeWord at h
  simp only at h
  split at h
  · cases h
  · split at h
    · cases h
    · rename_i hop
      refine ⟨by simpa using hop, ?_⟩
      split at h
      case h_7 => cases h
      all_goals
        rename_i hf
        cases h
        exact ⟨BitVec.eq_of_toNat_eq hf, rfl⟩

/-- Decoding and encoding are inverse to each other. -/
theorem decodeWord_eq_ok_iff {w : BitVec 32} {i : Instr} : decodeWord w = .ok i ↔ encode i = w := by
  refine ⟨fun h => ?_, fun h => h ▸ decodeWord_encode i⟩
  obtain ⟨hop, hf, hi⟩ := decodeWord_ok_fields h
  rw [← hi, encode_withOperandsOf hop hf]

/-! ## The opcode table (30_encoding.md R87) -/

/-- The word of an instruction matches the row of the instruction. -/
theorem encode_masked (i : Instr) : encode i &&& 0x0000707F = rowMatch i := by
  cases i with
  | csrrw rd csr rs1 => exact Laws.TableRow.csrrw rd csr rs1
  | csrrs rd csr rs1 => exact Laws.TableRow.csrrs rd csr rs1
  | csrrc rd csr rs1 => exact Laws.TableRow.csrrc rd csr rs1
  | csrrwi rd csr uimm => exact Laws.TableRow.csrrwi rd csr uimm
  | csrrsi rd csr uimm => exact Laws.TableRow.csrrsi rd csr uimm
  | csrrci rd csr uimm => exact Laws.TableRow.csrrci rd csr uimm

/-- A word that matches a row has the opcode and the `funct3` of the row. -/
theorem fields_of_masked {w : BitVec 32} {i : Instr} (h : w &&& 0x0000707F = rowMatch i) :
    w.extractLsb' 0 7 = systemOpcode ∧ w.extractLsb' 12 3 = i.funct3 := by
  have hkept : ∀ a b, (w.extractLsb' a b &&& (0x0000707F : BitVec 32).extractLsb' a b) = (rowMatch i).extractLsb' a b :=
    fun a b => by rw [← h, BitVec.extractLsb'_and]
  have hop := hkept 0 7
  have hf := hkept 12 3
  rw [show (0x0000707F : BitVec 32).extractLsb' 0 7 = BitVec.allOnes 7 by decide, BitVec.and_allOnes] at hop
  rw [show (0x0000707F : BitVec 32).extractLsb' 12 3 = BitVec.allOnes 3 by decide, BitVec.and_allOnes] at hf
  rw [hop, hf]
  cases i <;> simp only [rowMatch, Instr.funct3] <;> decide

/-- A word that matches the row of `i` is decoded to the instruction of that row. -/
theorem decodeWord_of_masked {w : BitVec 32} (i : Instr) (h : w &&& 0x0000707F = rowMatch i) :
    decodeWord w = .ok (i.withOperandsOf w) := by
  obtain ⟨hop, hf⟩ := fields_of_masked h
  exact decodeWord_eq_ok_iff.mpr (encode_withOperandsOf hop hf)

theorem masked_of_decodeWord {w : BitVec 32} {i : Instr} (h : decodeWord w = .ok i) : w &&& 0x0000707F = rowMatch i := by
  rw [← decodeWord_eq_ok_iff.mp h, encode_masked]

/-- The decoder rejects exactly the words that match no row. -/
theorem decodeWord_error_iff {w : BitVec 32} :
    (∃ why, decodeWord w = .error why) ↔ ∀ i, w &&& 0x0000707F ≠ rowMatch i := by
  constructor
  · rintro ⟨why, herr⟩ i h
    rw [decodeWord_of_masked i h] at herr
    cases herr
  · intro hno
    cases hd : decodeWord w with
    | error why => exact ⟨why, rfl⟩
    | ok i => exact absurd (masked_of_decodeWord hd) (hno i)

/-! ## The round trips and the table -/

/-- Settles O5: the word by its fields, and its bytes put together again. -/
theorem decodeOfEncodeIsTheInstruction : Obligations.DecodeOfEncodeIsTheInstruction :=
  fun i => ⟨decodeWord_encode i, decode_encodeBytes_append i⟩

/-- Settles O6: the fields of a word that decodes are those of the instruction, and no bit lies outside them. -/
theorem encodeOfDecodeIsTheWord : Obligations.EncodeOfDecodeIsTheWord :=
  fun _ _ => decodeWord_eq_ok_iff.mp

/-- Settles O7: a word that matches a row is decoded to the instruction of the row, and the word of an instruction
matches the instruction's row alone. -/
theorem decoderFollowsTheOpcodeTable : Obligations.DecoderFollowsTheOpcodeTable := by
  intro w
  refine ⟨⟨fun h => ⟨_, _, _, decodeWord_of_masked (.csrrw 0 0 0) h⟩, fun ⟨_, _, _, h⟩ => masked_of_decodeWord h⟩,
    ⟨fun h => ⟨_, _, _, decodeWord_of_masked (.csrrs 0 0 0) h⟩, fun ⟨_, _, _, h⟩ => masked_of_decodeWord h⟩,
    ⟨fun h => ⟨_, _, _, decodeWord_of_masked (.csrrc 0 0 0) h⟩, fun ⟨_, _, _, h⟩ => masked_of_decodeWord h⟩,
    ⟨fun h => ⟨_, _, _, decodeWord_of_masked (.csrrwi 0 0 0) h⟩, fun ⟨_, _, _, h⟩ => masked_of_decodeWord h⟩,
    ⟨fun h => ⟨_, _, _, decodeWord_of_masked (.csrrsi 0 0 0) h⟩, fun ⟨_, _, _, h⟩ => masked_of_decodeWord h⟩,
    ⟨fun h => ⟨_, _, _, decodeWord_of_masked (.csrrci 0 0 0) h⟩, fun ⟨_, _, _, h⟩ => masked_of_decodeWord h⟩, ?_⟩
  rw [decodeWord_error_iff]
  constructor
  · rintro ⟨hrw, hrs, hrc, hrwi, hrsi, hrci⟩ i
    cases i with
    | csrrw => exact hrw
    | csrrs => exact hrs
    | csrrc => exact hrc
    | csrrwi => exact hrwi
    | csrrsi => exact hrsi
    | csrrci => exact hrci
  · intro hno
    exact ⟨hno (.csrrw 0 0 0), hno (.csrrs 0 0 0), hno (.csrrc 0 0 0), hno (.csrrwi 0 0 0), hno (.csrrsi 0 0 0),
      hno (.csrrci 0 0 0)⟩

end Sys2Proof

namespace Sys2Proof.Machine

/-! ## Numbers outside the table of 10_state.md R23 (30_encoding.md R92) -/

theorem State.access_of_unlisted {s : State} {n : CsrNum} {w : Bool} (h : Csr.ofNumber n = none) :
    s.access n w = .refuse .csrNumberOutOfScope := by
  rw [State.access, h]

/-- Settles O24: the access is refused before any check of the mode. -/
theorem unlistedNumbersAreOutOfScope : Obligations.UnlistedNumbersAreOutOfScope := by
  intro i s hi
  have hn : Csr.ofNumber i.csrNum = none := Option.not_isSome_iff_eq_none.mp (Bool.eq_false_iff.mp hi)
  exact exec_of_refuse (State.access_of_unlisted hn)

/-! ## The "exists when" column by number (10_state.md R23) -/

/-- `k` stands alone in the table and names no CSR: CDE is 0, or the extension of the register is missing. -/
def absentAlone (g : Config) (cde : Bool) (k : Nat) : Prop :=
  let within := fun lo hi : Nat => lo ≤ k ∧ k ≤ hi
  (k = 0x120 ∧ cde = false) ∨ k = 0x154 ∨ k = 0x254 ∨
  ((within 0x150 0x157 ∨ within 0x250 0x257) ∧ g.hasSscsrind = false) ∨ (within 0x250 0x257 ∧ g.hasH = false) ∨
  (k = 0xDA0 ∧ g.hasSscofpmf = false) ∨
  ((k = 0x106 ∨ k = 0x104 ∨ k = 0x144 ∨ k = 0x303) ∧ g.hasSMode = false) ∨
  ((k = 0x204 ∨ k = 0x244 ∨ k = 0x603 ∨ k = 0x606 ∨ k = 0x645) ∧ g.hasH = false) ∨
  ((k = 0x30C ∨ k = 0x31C) ∧ g.hasSmstateen = false) ∨
  ((k = 0x60C ∨ k = 0x61C) ∧ (g.hasSmstateen = false ∨ g.hasH = false)) ∨
  ((k = 0x308 ∨ k = 0x309) ∧ g.hasSmaia = false) ∨ (k = 0x608 ∧ (g.hasSsaia = false ∨ g.hasH = false))

/-- `k` names no CSR: it is in a run of counters or configuration registers whose extension is missing, or it is the
number of a high half on a 64-bit hart. -/
def absentRunOrHigh (g : Config) (k : Nat) : Prop :=
  let within := fun lo hi : Nat => lo ≤ k ∧ k ≤ hi
  ((k = 0x321 ∨ k = 0x322 ∨ k = 0x721 ∨ k = 0x722) ∧ g.hasSmcntrpmf = false) ∨
  (within 0x723 0x73F ∧ g.hasSscofpmf = false) ∨
  (g.xlen = .rv64 ∧ (k = 0x31A ∨ k = 0x31C ∨ k = 0x61C ∨ within 0x721 0x73F ∨ k = 0xB80 ∨ within 0xB82 0xB9F ∨
    within 0xC80 0xC9F)) ∨
  (g.hasZicntr = false ∧ (within 0xC00 0xC02 ∨ within 0xC80 0xC82)) ∨
  (g.hasZihpm = false ∧ (within 0xC03 0xC1F ∨ within 0xC83 0xC9F))

theorem not_absentAlone_of_run {g : Config} {cde : Bool} {k : Nat} (h : k / 32 ∈ Csr.runs) :
    ¬ absentAlone g cde k := by
  simp only [Csr.runs, List.mem_cons, List.not_mem_nil, or_false] at h
  unfold absentAlone
  omega

theorem Csr.mem_singleNumbers_of_absentAlone {g : Config} {cde : Bool} {k : Nat} (h : absentAlone g cde k) :
    k ∈ Csr.singleNumbers := by
  have hsireg : 0x150 ≤ k ∧ k ≤ 0x157 → k ∈ Csr.singleNumbers := by
    rintro ⟨hlo, hhi⟩
    interval_cases k <;> decide
  have hvsireg : 0x250 ≤ k ∧ k ≤ 0x257 → k ∈ Csr.singleNumbers := by
    rintro ⟨hlo, hhi⟩
    interval_cases k <;> decide
  rcases h with ⟨rfl, -⟩ | rfl | rfl | ⟨h | h, -⟩ | ⟨h, -⟩ | ⟨rfl, -⟩ | ⟨rfl | rfl | rfl | rfl, -⟩ |
    ⟨rfl | rfl | rfl | rfl | rfl, -⟩ | ⟨rfl | rfl, -⟩ | ⟨rfl | rfl, -⟩ | ⟨rfl | rfl, -⟩ | ⟨rfl, -⟩
  case inr.inr.inr.inl.inl => exact hsireg h
  case inr.inr.inr.inl.inr | inr.inr.inr.inr.inl => exact hvsireg h
  all_goals decide

/-- A number that names no CSR on this hart is a known number. -/
theorem Csr.ofNumber_isSome_of_absent {g : Config} {cde : Bool} {n : CsrNum}
    (h : absentAlone g cde n.toNat ∨ absentRunOrHigh g n.toNat) : (Csr.ofNumber n).isSome = true := by
  rw [Csr.ofNumber_isSome_iff]
  rcases h with h | h
  · exact .inl (Csr.mem_singleNumbers_of_absentAlone h)
  · by_cases hk : n.toNat ∈ Csr.singleNumbers
    · exact .inl hk
    · have hhigh : n.toNat ≠ 0x31A ∧ n.toNat ≠ 0x31C ∧ n.toNat ≠ 0x61C :=
        ⟨fun e => hk (e ▸ by decide), fun e => hk (e ▸ by decide), fun e => hk (e ▸ by decide)⟩
      unfold absentRunOrHigh at h
      omega

/-! ### The runs -/

section
variable (g : Config) (i : CounterIx)

theorem absentRunOrHigh_config_low :
    absentRunOrHigh g (0x320 + i.val) ↔ (i = 1 ∨ i = 2) ∧ g.hasSmcntrpmf = false := by
  unfold absentRunOrHigh
  grind

theorem absentRunOrHigh_config_high : absentRunOrHigh g (0x720 + i.val) ↔
    i ≠ 0 ∧ (g.xlen = .rv64 ∨ if i = 1 ∨ i = 2 then g.hasSmcntrpmf = false else g.hasSscofpmf = false) := by
  unfold absentRunOrHigh
  grind

theorem not_absentRunOrHigh_counter_low : ¬ absentRunOrHigh g (0xB00 + i.val) := by
  unfold absentRunOrHigh
  omega

theorem absentRunOrHigh_counter_high : absentRunOrHigh g (0xB80 + i.val) ↔ i ≠ 1 ∧ g.xlen = .rv64 := by
  unfold absentRunOrHigh
  grind

theorem absentRunOrHigh_userCounter_low : absentRunOrHigh g (0xC00 + i.val) ↔
    if i.val ≤ 2 then g.hasZicntr = false else g.hasZihpm = false := by
  unfold absentRunOrHigh
  grind

theorem absentRunOrHigh_userCounter_high : absentRunOrHigh g (0xC80 + i.val) ↔
    g.xlen = .rv64 ∨ if i.val ≤ 2 then g.hasZicntr = false else g.hasZihpm = false := by
  unfold absentRunOrHigh
  grind

end

/-! ### The registers -/

theorem halfExists_low (c : Config) : halfExists c .low = true := rfl

theorem halfExists_high_eq_false_iff (c : Config) : halfExists c .high = false ↔ c.xlen = .rv64 := by
  unfold halfExists
  cases c.xlen <;> decide

section
variable (s : State) (i : CounterIx)

theorem State.csrExists_config_low : s.csrExists (.config i .low) = false ↔
    (i = 0 ∨ i = 2) ∧ s.cfg.hasSmcntrpmf = false := by
  by_cases hi : i = 0 ∨ i = 2 <;> simp [State.csrExists, hi, halfExists_low]

theorem State.csrExists_config_high : s.csrExists (.config i .high) = false ↔
    s.cfg.xlen = .rv64 ∨ if i = 0 ∨ i = 2 then s.cfg.hasSmcntrpmf = false else s.cfg.hasSscofpmf = false := by
  by_cases hi : i = 0 ∨ i = 2 <;> cases hx : s.cfg.xlen <;> simp [State.csrExists, hi, halfExists, hx]

theorem State.csrExists_userCounter (h : Half) : s.csrExists (.userCounter i h) = false ↔
    halfExists s.cfg h = false ∨ if i.val ≤ 2 then s.cfg.hasZicntr = false else s.cfg.hasZihpm = false := by
  by_cases hi : i.val ≤ 2 <;> simp only [State.csrExists, hi, if_true, if_false, Bool.and_eq_false_iff, or_comm]

theorem State.csrExists_ofConfigRun :
    s.csrExists (Csr.ofConfigRun i) = false ↔ absentRunOrHigh s.cfg (0x320 + i.val) := by
  rw [absentRunOrHigh_config_low]
  unfold Csr.ofConfigRun
  split
  · grind [State.csrExists]
  · split <;> grind [State.csrExists_config_low]

theorem State.csrExists_ofConfigHighRun {c : Csr} (h : Csr.ofConfigHighRun i = some c) :
    s.csrExists c = false ↔ absentRunOrHigh s.cfg (0x720 + i.val) := by
  rw [absentRunOrHigh_config_high]
  unfold Csr.ofConfigHighRun at h
  split at h
  · cases h
  · split at h <;> cases h <;> grind [State.csrExists_config_high]

theorem State.csrExists_ofCounterRun_low {c : Csr} (h : Csr.ofCounterRun i .low = some c) :
    s.csrExists c = false ↔ absentRunOrHigh s.cfg (0xB00 + i.val) := by
  unfold Csr.ofCounterRun at h
  split at h <;> cases h
  exact iff_of_false (by simp [State.csrExists, halfExists_low]) (not_absentRunOrHigh_counter_low s.cfg i)

theorem State.csrExists_ofCounterRun_high {c : Csr} (h : Csr.ofCounterRun i .high = some c) :
    s.csrExists c = false ↔ absentRunOrHigh s.cfg (0xB80 + i.val) := by
  rw [absentRunOrHigh_counter_high]
  unfold Csr.ofCounterRun at h
  split at h <;> cases h
  next hi => exact (halfExists_high_eq_false_iff s.cfg).trans (and_iff_right hi).symm

end

/-- The registers that stand alone, each with its number. -/
theorem State.csrExists_ofSingle {s : State} {k : Nat} {c : Csr} (h : Csr.ofSingle k = some c) :
    s.csrExists c = false ↔ absentAlone s.cfg s.cde k ∨ absentRunOrHigh s.cfg k := by
  have hcde : (s.cfg.hasSmcdeleg && s.cde) = s.cde := by
    rw [State.cde, ← Bool.and_assoc, Bool.and_self]
  unfold Csr.ofSingle at h
  split at h
  case h_40 => cases h
  all_goals
    cases h
    simp only [State.csrExists, absentAlone, absentRunOrHigh, hcde, halfExists_low, halfExists_high_eq_false_iff,
      Bool.and_eq_false_iff, Nat.reduceEqDiff, Nat.reduceLeDiff, false_and, and_false, true_and, and_true, false_or,
      or_false, or_self, true_or, or_true, Bool.true_eq_false]

/-- A number is the one of its run of 32 and its index there. -/
theorem CsrNum.toNat_eq_run_add_index (n : CsrNum) :
    n.toNat = 32 * (n.extractLsb' 5 7).toNat + ((n.extractLsb' 0 5).toFin : CounterIx).val := by
  rw [BitVec.val_toFin, BitVec.extractLsb'_toNat, BitVec.extractLsb'_toNat, Nat.shiftRight_zero,
    Nat.shiftRight_eq_div_pow]
  omega

/-- The register a number names is missing exactly when the number is absent (40_csr_instructions.md R112). -/
theorem State.csrExists_eq_false_iff {s : State} {n : CsrNum} {c : Csr} (h : Csr.ofNumber n = some c) :
    s.csrExists c = false ↔ absentAlone s.cfg s.cde n.toNat ∨ absentRunOrHigh s.cfg n.toNat := by
  have hn := CsrNum.toNat_eq_run_add_index n
  unfold Csr.ofNumber at h
  dsimp only at h
  generalize ((n.extractLsb' 0 5).toFin : CounterIx) = i at h hn
  split at h
  case h_7 => exact State.csrExists_ofSingle h
  all_goals
    rename_i hq
    rw [hq] at hn
    rw [hn, or_iff_right (not_absentAlone_of_run (by simp only [Csr.runs, List.mem_cons]; omega))]
  case h_1 => cases h; exact State.csrExists_ofConfigRun s i
  case h_2 => exact State.csrExists_ofConfigHighRun s i h
  case h_3 => exact State.csrExists_ofCounterRun_low s i h
  case h_4 => exact State.csrExists_ofCounterRun_high s i h
  case h_5 =>
    cases h
    rw [State.csrExists_userCounter, absentRunOrHigh_userCounter_low, halfExists_low, Bool.true_eq_false, false_or]
  case h_6 =>
    cases h
    rw [State.csrExists_userCounter, absentRunOrHigh_userCounter_high, halfExists_high_eq_false_iff]

/-- An access to a register that does not exist raises an illegal instruction exception in every mode
(40_csr_instructions.md R108). -/
theorem raises_of_not_csrExists {i : Instr} {s : State} {c : Csr} (hn : names i c) (h : s.csrExists c = false) :
    Raises .illegal i s := by
  refine exec_of_raise (State.access_of_denied hn ?_)
  simp [State.permission, h]

/-- Settles O23: a number that is absent is known, and the register it names is missing. -/
theorem absentNumbersRaise : Obligations.AbsentNumbersRaise := by
  intro i s g n within absent
  have habsent : absent ↔ absentAlone g s.cde n.toNat ∨ absentRunOrHigh g n.toNat := by
    simp only [absent, within, absentAlone, absentRunOrHigh, or_assoc, BitVec.ofNat_eq_ofNat, ← BitVec.toNat_inj,
      BitVec.toNat_ofNat, Nat.reducePow, Nat.reduceMod]
  refine ⟨fun h => ?_, fun c hc => (State.csrExists_eq_false_iff hc).trans habsent.symm⟩
  rw [habsent] at h
  obtain ⟨c, hc⟩ := Option.isSome_iff_exists.mp (Csr.ofNumber_isSome_of_absent h)
  exact raises_of_not_csrExists hc ((State.csrExists_eq_false_iff hc).mpr h)

end Sys2Proof.Machine

/-! PROOFS. The statements of 40_csr_instructions.md: the six instructions, what one that completes leaves unchanged, the
checks of permission, the machine-level numbers of the counters. -/

namespace Sys2Proof.Machine

/-! ## The worked examples (R100 to R105) -/

/-- Settles O8: each word is the encoding of the instruction it stands for. -/
theorem specWordsDecode : Obligations.SpecWordsDecode := by
  unfold Obligations.SpecWordsDecode
  simp only [decodeWord_eq_ok_iff]
  decide

/-! ## The outcome of an instruction (R107) -/

/-- Settles O19: `exec` of an instruction is decided by its access, and where the access reaches a target by `pc`. -/
theorem accessDecidesTheOutcome : Obligations.AccessDecidesTheOutcome := by
  intro i s
  refine ⟨fun _ ha => exec_of_raise ha, fun _ ha => exec_of_refuse ha, fun tgt ha hp => ?_⟩
  rw [OutOfScope, exec_of_reach ha, if_pos (Nat.le_of_not_lt hp)]

/-! ## The six instructions (R100 to R105) -/

/-- The written value is an `XLEN`-bit value when the one read is (30_encoding.md R88, R89). -/
theorem trunc_writtenValue (i : Instr) (s : State) {old : Word} (h : trunc s.cfg.xlen old = old) :
    trunc s.cfg.xlen (writtenValue i s old) = writtenValue i s old := by
  cases i with
  | csrrw rd csr rs1 => exact State.trunc_reg s rs1
  | csrrs rd csr rs1 => simp only [writtenValue, combineSet, srcReg, trunc_or, h, State.trunc_reg]
  | csrrc rd csr rs1 => exact trunc_and _ _ _ h
  | csrrwi rd csr uimm => exact trunc_imm _ uimm
  | csrrsi rd csr uimm => simp only [writtenValue, combineSet, srcImm, trunc_or, h, trunc_imm]
  | csrrci rd csr uimm => exact trunc_and _ _ _ h

/-- The state after an access, without the cut to `XLEN` bits: the written value has no other bits. -/
theorem afterAccess_eq (i : Instr) (tgt : Target) (s : State) :
    afterAccess i tgt s =
      { (if wantsWrite i then tgt.write (writtenValue i s (tgt.read s)) s else s).setReg i.rd (tgt.read s) with
        pc := s.pc + 4 } := by
  simp only [afterAccess, trunc_writtenValue i s (Target.trunc_read tgt s)]

/-- What R100 to R105 say of each instruction alike, `written` being the state its write leaves: its word matches its
row, it raises what its access raises, and it completes over the register that a permitted access reaches. -/
theorem meaning_of_written {i : Instr} {s : State} {written : Target → State}
    (hw : ∀ tgt, (if wantsWrite i then tgt.write (writtenValue i s (tgt.read s)) s else s) = written tgt) :
    encode i &&& 0x0000707F = rowMatch i ∧
    (∀ e, s.access i.csrNum (wantsWrite i) = .raise e → Raises e i s) ∧
    ∀ (c : Csr) (tgt : Target),
      names i c → s.permission i.csrNum c (wantsWrite i) = none → s.resolve c = .reach tgt → s.pcInRange →
      exec i s = .next { (written tgt).setReg i.rd (tgt.read s) with pc := s.pc + 4 } := by
  refine ⟨encode_masked i, fun _ ha => exec_of_raise ha, fun c tgt hn hperm hr hp => ?_⟩
  have ha : s.access i.csrNum (wantsWrite i) = .reach tgt := by rw [State.access_of_permitted hn hperm, hr]
  rw [completes_of_reach ha hp, afterAccess_eq, hw]

/-- The write of a set or clear form is left out when its operand is zero (R101, R102, R104, R105). -/
theorem ite_bne_zero {α : Type} [DecidableEq α] [Zero α] (a : α) (written kept : State) :
    (if (a != 0) = true then written else kept) = if a = 0 then kept else written := by
  simp only [bne_iff_ne, ite_not]

/-- Settles O13: CSRRW always writes. -/
theorem csrrwCompletes : Obligations.CsrrwCompletes :=
  fun rd rs1 csr _ => meaning_of_written (i := .csrrw rd csr rs1) fun _ => rfl

/-- Settles O14: CSRRS writes unless its operand is zero. -/
theorem csrrsCompletes : Obligations.CsrrsCompletes :=
  fun rd rs1 csr _ => meaning_of_written (i := .csrrs rd csr rs1) fun _ => ite_bne_zero rs1 _ _

/-- Settles O15: CSRRC writes unless its operand is zero. -/
theorem csrrcCompletes : Obligations.CsrrcCompletes :=
  fun rd rs1 csr _ => meaning_of_written (i := .csrrc rd csr rs1) fun _ => ite_bne_zero rs1 _ _

/-- Settles O16: CSRRWI always writes. -/
theorem csrrwiCompletes : Obligations.CsrrwiCompletes :=
  fun rd csr uimm _ => meaning_of_written (i := .csrrwi rd csr uimm) fun _ => rfl

/-- Settles O17: CSRRSI writes unless its operand is zero. -/
theorem csrrsiCompletes : Obligations.CsrrsiCompletes :=
  fun rd csr uimm _ => meaning_of_written (i := .csrrsi rd csr uimm) fun _ => ite_bne_zero uimm _ _

/-- Settles O18: CSRRCI writes unless its operand is zero. -/
theorem csrrciCompletes : Obligations.CsrrciCompletes :=
  fun rd csr uimm _ => meaning_of_written (i := .csrrci rd csr uimm) fun _ => ite_bne_zero uimm _ _

/-! ## The frame of an instruction that completes (R100 to R105, R116) -/

theorem onlyTargetDiffers_refl (tgt : Target) (s : State) : onlyTargetDiffers tgt s s := by
  simp only [onlyTargetDiffers, implies_true, and_self]

theorem afterAccess_onlyTargetDiffers (i : Instr) (tgt : Target) (s : State) :
    onlyTargetDiffers tgt s (afterAccess i tgt s) :=
  afterAccess_keeps (onlyTargetDiffers tgt s) (fun _ _ _ h => h) (fun v => Target.write_differs tgt v s)
    (onlyTargetDiffers_refl tgt s)

/-- Every general register but `rd` reads as before (10_state.md R20). -/
theorem afterAccess_reg_of_ne {i : Instr} (tgt : Target) (s : State) {r : Reg} (hr : r ≠ i.rd) :
    (afterAccess i tgt s).reg r = s.reg r := by
  obtain ⟨hcfg, -⟩ := afterAccess_sameOutside i tgt s
  have hx : (afterAccess i tgt s).x.get r = s.x.get r := by
    rw [afterAccess_x]
    split
    · rfl
    · simp only [Vector.get_eq_getElem]
      exact Vector.getElem_set_ne _ _ (fun e => hr (Fin.ext e.symm))
  rw [State.reg, State.reg, hcfg, hx]

/-- An instruction that gives a next state over the target it reaches completes there. -/
theorem next_eq_afterAccess {i : Instr} {s t : State} {tgt : Target}
    (ha : s.access i.csrNum (wantsWrite i) = .reach tgt) (h : exec i s = .next t) : t = afterAccess i tgt s := by
  rw [exec_of_reach ha] at h
  split at h <;> cases h
  rfl

/-- Settles O20: the next state is the one after the access, of which each part of the frame is a lemma. -/
theorem completedInstructionFrame : Obligations.CompletedInstructionFrame := by
  intro i s t tgt ha h
  obtain rfl := next_eq_afterAccess ha h
  obtain ⟨-, -, hmem, -⟩ := afterAccess_sameOutside i tgt s
  exact ⟨fun r hr => afterAccess_reg_of_ne tgt s hr, afterAccess_rd i tgt s, afterAccess_onlyTargetDiffers i tgt s,
    afterAccess_sameCsrs tgt s, afterAccess_sameOutside i tgt s, afterAccess_pc i tgt s, fun a => by rw [hmem]⟩

/-! ## The checks of permission (R108, R109) -/

/-- An instruction that a check of `permission` stops raises. -/
theorem raises_of_denied {i : Instr} {s : State} {c : Csr} {e : Exc} (hn : names i c)
    (hp : s.permission i.csrNum c (wantsWrite i) = some e) : Raises e i s :=
  exec_of_raise (State.access_of_denied hn hp)

/-- The first five checks all raise an illegal instruction exception, so whichever of them applies, that is raised (R108
steps 1 to 4). -/
theorem State.permission_illegal {s : State} {n : CsrNum} {c : Csr} {w : Bool}
    (h : (s.csrExists c = false ∨ (level n = .machine ∧ s.mode ≠ .m) ∨
      (s.mode = .u ∧ (level n = .supervisor ∨ level n = .hypervisor)) ∨ (w = true ∧ readOnlyNumber n = true)) ∨
      s.mstateenBlocks c = true) :
    s.permission n c w = some .illegal := by
  unfold State.permission
  rcases h with (hex | hmach | huser | hro) | hst
  · rw [hex]
    rfl
  · simp only [if_pos hmach, ite_self]
  · simp only [if_pos huser, ite_self]
  · simp only [if_pos (Bool.and_eq_true_iff.mpr hro), ite_self]
  · simp only [if_pos hst, ite_self]

/-- From VS or VU mode, a read-write register below machine level that exists and that `mstateen0[60]` lets through
raises a virtual instruction exception when its level is too high or `hstateen0[60]` blocks it (R108 steps 5 to 7). -/
theorem State.permission_virtual {s : State} {n : CsrNum} {c : Csr} {w : Bool} (hn : Csr.ofNumber n = some c)
    (hm : s.mode = .vs ∨ s.mode = .vu) (hex : s.csrExists c = true) (hl : c.level ≠ .machine)
    (hro : c.readOnly = false) (hst : s.mstateenBlocks c = false)
    (h : c.level = .hypervisor ∨ (s.mode = .vu ∧ c.level = .supervisor) ∨ s.hstateenBlocks c = true) :
    s.permission n c w = some .virtual := by
  have ha : c ≠ .absent := by rintro rfl; cases hex
  obtain ⟨hv, -, hu⟩ := State.mode_of_guest hm
  unfold State.permission
  rw [(Csr.of_number hn).2.1, (Csr.of_number hn).1 ha]
  simp only [hex, hl, hu, hro, hst, hv, Bool.not_true, Bool.false_eq_true, Bool.and_false, false_and, true_and, if_false]
  rcases h with hhyp | hsup | hhst
  · rw [if_pos hhyp]
  · simp only [if_pos hsup, ite_self]
  · simp only [if_pos hhst, ite_self]

theorem State.mstateenBlocks_of_not_gated (s : State) {c : Csr} (h : gatedByMstateen c = false) :
    s.mstateenBlocks c = false := by
  rw [State.mstateenBlocks, h, Bool.and_false]

/-- Settles O22: the illegal instruction exceptions are those of the first four checks, and a guest that passes them is
stopped by the level of the register. -/
theorem existencePrivilegeAndReadOnlyChecks : Obligations.ExistencePrivilegeAndReadOnlyChecks := by
  intro i s c hn
  refine ⟨fun h => raises_of_denied hn (State.permission_illegal (.inl h)), fun hex hm hc => ?_, fun hex hm hc => ?_⟩
  · obtain ⟨hl, hro, hg⟩ : c.level = .hypervisor ∧ c.readOnly = false ∧ gatedByMstateen c = false := by
      simp only [List.mem_cons, List.not_mem_nil, or_false] at hc
      rcases hc with rfl | rfl | rfl | rfl | rfl | rfl | rfl | rfl <;> exact ⟨rfl, rfl, rfl⟩
    exact raises_of_denied hn (State.permission_virtual hn hm hex (hl ▸ nofun) hro
      (s.mstateenBlocks_of_not_gated hg) (.inl hl))
  · obtain ⟨hl, hro, hg⟩ : c.level = .supervisor ∧ c.readOnly = false ∧ gatedByMstateen c = false := by
      simp only [List.mem_cons, List.not_mem_nil, or_false] at hc
      rcases hc with rfl | rfl | rfl <;> exact ⟨rfl, rfl, rfl⟩
    exact raises_of_denied hn (State.permission_virtual hn (.inr hm) hex (hl ▸ nofun) hro
      (s.mstateenBlocks_of_not_gated hg) (.inr (.inl ⟨hm, hl⟩)))

/-- Settles O25: the check of `mstateen0[60]` comes before those that raise a virtual instruction exception, and the
check of `hstateen0[60]` is one of these. -/
theorem stateEnableBitsBlockTheIndirectCsrs : Obligations.StateEnableBitsBlockTheIndirectCsrs := by
  intro i s c hn hse hind
  refine ⟨fun hc hm hmst => ?_, fun hc hm hH hmst hhst => ?_⟩
  · have hg : gatedByMstateen c = true := by
      rcases hc with rfl | ⟨k, rfl⟩ | rfl | ⟨k, rfl⟩ <;> rfl
    have hb : s.mstateenBlocks c = true := by
      simp only [State.mstateenBlocks, hse, bne_iff_ne.mpr hm, hmst, hg, Bool.not_false, Bool.and_self]
    exact raises_of_denied hn (State.permission_illegal (.inr hb))
  · obtain ⟨hex, hl, hro, hg⟩ :
        s.csrExists c = true ∧ c.level ≠ .machine ∧ c.readOnly = false ∧ gatedByHstateen c = true := by
      rcases hc with rfl | ⟨k, rfl⟩ <;> exact ⟨hind, nofun, rfl, rfl⟩
    have hopen : s.mstateenBlocks c = false := by
      simp only [State.mstateenBlocks, hmst, Bool.not_true, Bool.and_false, Bool.false_and]
    have hb : s.hstateenBlocks c = true := by
      simp only [State.hstateenBlocks, hse, hH, (State.mode_of_guest (.inl hm)).1, State.hstateenView_getLsbD, hhst, hg,
        Bool.and_false, Bool.not_false, Bool.and_self]
    exact raises_of_denied hn (State.permission_virtual hn (.inl hm) hex hl hro hopen (.inr (.inr hb)))

/-! ## The machine-level numbers of the counters (R113) -/

/-- The bit that holds MINH after a write of its half is the written one (10_state.md R30, R31). -/
theorem writeHalf_minh {x : Xlen} {h : Half} (hb : h = .low ↔ x = .rv64) (old v : Word) :
    (writeHalf x h old v).getLsbD 62 = v.getLsbD (if h = .low then 62 else 30) := by
  cases h with
  | low => rw [hb.mp rfl]; rfl
  | high => exact writeHalf_high_getLsbD x old v 62 (by decide)

/-- Under a mask the bits of the mask take the written value, the others keep theirs (00_scope.md R7). -/
theorem cfgLegal_mask_getLsbD {c : Config} {j : CounterIx} {m : Word} (hm : c.cfgLegal.get j = .mask m) (old new : Word)
    {k : Nat} (hk : k < 64) :
    (cfgLegal c j old new).getLsbD k = if m.getLsbD k then new.getLsbD k else old.getLsbD k := by
  simp only [cfgLegal, hm, legalise, BitVec.getLsbD_or, BitVec.getLsbD_and, BitVec.getLsbD_not, hk]
  cases m.getLsbD k <;> simp

/-- Settles O43: in M-mode the number reaches the register itself, which is read and written with MINH in view. -/
theorem machineNumbersReachTheCounters : Obligations.MachineNumbersReachTheCounters := by
  intro i s j h v hpriv _ hp
  have hm := State.mode_of_machine hpriv
  refine ⟨fun hn hx => ?_, fun hn hex => ⟨?_, rfl, rfl, fun m hmask hb => ?_⟩⟩
  · have hex : s.csrExists (.counter j h) = true := by
      cases h with
      | low => rfl
      | high => simp [State.csrExists, halfExists, hx rfl]
    exact ⟨completes_of_reach (State.access_machine_level hn hm rfl hex rfl) hp, rfl, rfl⟩
  · exact completes_of_reach (State.access_machine_level hn hm rfl hex rfl) hp
  · change ((s.setCounterCfg j _).counterCfg j).getLsbD 62 = _
    rw [State.counterCfg_setCounterCfg, if_pos rfl, State.configWrite, cfgLegal_mask_getLsbD hmask _ _ (by decide)]
    simp only [Bool.false_eq_true, if_false, writeHalf_minh hb]

end Sys2Proof.Machine

/-! PROOFS. The statements of 41_cde_and_delegation.md: M-mode alone reads and writes CDE, M-mode alone delegates a
counter, and below M-mode no instruction reaches a counter that is not delegated. -/

namespace Sys2Proof.Machine

/-! ## What a trap and an instruction below M-mode leave of the CSRs -/

theorem takeException_sameCsrs (e : Exc) (word : BitVec 32) (s : State) : sameCsrs s (takeException e word s) := by
  obtain ⟨-, -, -, -, -, -, hcsrs⟩ :=
    enterTrap_frame (s.trapTarget e) (BitVec.ofNat 64 e.code) (s.trapValue word) none s
  exact hcsrs

theorem takeLcofi_sameCsrs (l : TrapTarget) (s : State) : sameCsrs s (takeLcofi l s) := by
  obtain ⟨-, -, -, -, -, -, hcsrs⟩ := enterTrap_frame l (lcofiCause s.cfg.xlen) 0 (some lcofiCode) s
  exact hcsrs

/-- Below M-mode an instruction leaves every CSR, by raising or by reading only, or writes a target that may be written
from there. -/
theorem exec_below_machine_csrs {i : Instr} {s t : State} (hm : s.mode ≠ .m) (h : exec i s = .next t) :
    sameCsrs s t ∨ ∃ tgt, wantsWrite i = true ∧ writableBelowMachine s tgt ∧ t = afterAccess i tgt s := by
  rcases exec_below_machine hm h with ⟨e, rfl⟩ | ⟨tgt, rfl, hwritable⟩
  · exact .inl (takeException_sameCsrs e (encode i) s)
  · cases hw : wantsWrite i with
    | false => exact .inl (afterAccess_sameCsrs tgt s hw)
    | true => exact .inr ⟨tgt, rfl, hwritable hw, rfl⟩

/-! ## Delegation (R124) -/

theorem State.delegated_iff (s : State) (i : CounterIx) :
    s.delegated i = true ↔ s.cde = true ∧ s.mcounteren.getLsbD i.val = true := by
  rw [State.delegated, Bool.and_eq_true]

/-- Delegation depends on the parameters and the two registers alone. -/
theorem State.delegated_congr {s t : State} (hcfg : t.cfg = s.cfg) (hmenvcfg : t.menvcfg = s.menvcfg)
    (hmcounteren : t.mcounteren = s.mcounteren) (i : CounterIx) : t.delegated i = s.delegated i := by
  rw [State.delegated, State.delegated, State.cde, State.cde, hcfg, hmenvcfg, hmcounteren]

/-- Below M-mode an instruction writes neither register that delegation depends on: both are machine-level. -/
theorem exec_below_machine_keeps_delegation {i : Instr} {s t : State} (hm : s.mode ≠ .m) (h : exec i s = .next t) :
    t.menvcfg = s.menvcfg ∧ t.mcounteren = s.mcounteren := by
  rcases exec_below_machine_csrs hm h with ⟨hmenvcfg, hmcounteren, -⟩ | ⟨tgt, -, hwritable, rfl⟩
  · exact ⟨hmenvcfg, hmcounteren⟩
  · obtain ⟨hmenvcfg, hmcounteren, -⟩ := afterAccess_onlyTargetDiffers i tgt s
    refine ⟨hmenvcfg ?_, hmcounteren ?_⟩
    · rintro half rfl
      exact hwritable
    · rintro rfl
      exact hwritable

/-- A step below M-mode leaves both registers: a taken LCOFI and the environment do in every mode. -/
theorem step_below_machine_keeps_delegation {s t : State} (hm : s.mode ≠ .m) (h : step s = .next t) :
    t.menvcfg = s.menvcfg ∧ t.mcounteren = s.mcounteren := by
  rcases step_next_cases h with ⟨l, -, rfl⟩ | ⟨i, u, -, -, hu, rfl⟩
  · obtain ⟨hmenvcfg, hmcounteren, -⟩ := takeLcofi_sameCsrs l s
    exact ⟨(environment_menvcfg _ _).trans hmenvcfg, (environment_mcounteren _ _).trans hmcounteren⟩
  · obtain ⟨hmenvcfg, hmcounteren⟩ := exec_below_machine_keeps_delegation hm hu
    exact ⟨(environment_menvcfg _ _).trans hmenvcfg, (environment_mcounteren _ _).trans hmcounteren⟩

/-- Settles O38: below M-mode a step leaves `menvcfg` and `mcounteren`, and with them the delegated counters. -/
theorem onlyMachineModeDelegates : Obligations.OnlyMachineModeDelegates := by
  refine ⟨State.delegated_iff, fun s t hm h => ?_⟩
  obtain ⟨hmenvcfg, hmcounteren⟩ := step_below_machine_keeps_delegation hm h
  obtain ⟨hcfg, -⟩ := step_next_cfg_mem h
  exact ⟨hmenvcfg, hmcounteren, State.delegated_congr hcfg hmenvcfg hmcounteren⟩

/-! ## The counters that are not delegated (R126, 43_scountinhibit.md R161) -/

/-- A write through `scountinhibit` leaves the inhibit bit of a counter that `mcounteren` does not enable. -/
theorem State.scountinhibitWrite_getLsbD_of_not_enabled {s : State} {j : CounterIx} (v : Word)
    (h : s.mcounteren.getLsbD j.val = false) :
    (s.scountinhibitWrite v).getLsbD j.val = s.mcountinhibit.getLsbD j.val := by
  rw [State.scountinhibitWrite_eq, writeBits32_getLsbD _ _ _ j.isLt, BitVec.getLsbD_and, h]
  rfl

/-- A write that may happen below M-mode leaves the inhibit bit of a counter that is not delegated. -/
theorem Target.write_inhibit_of_not_delegated {tgt : Target} {s : State} {j : CounterIx} (v : Word)
    (hwritable : writableBelowMachine s tgt) (hj : s.delegated j = false) :
    (tgt.write v s).mcountinhibit.getLsbD j.val = s.mcountinhibit.getLsbD j.val := by
  cases tgt with
  | scountinhibit =>
    obtain ⟨-, hcde⟩ := hwritable
    have hen : s.mcounteren.getLsbD j.val = false := by rwa [State.delegated, hcde, Bool.true_and] at hj
    exact State.scountinhibitWrite_getLsbD_of_not_enabled v hen
  | mcountinhibit => exact hwritable.elim
  | _ => rfl

/-- Settles O39: what can be written below M-mode is another register, or `scountinhibit`, which masks the bit. -/
theorem undelegatedCountersAreOutOfReach : Obligations.UndelegatedCountersAreOutOfReach := by
  intro i s t j hm hj h
  rcases exec_below_machine_csrs hm h with ⟨-, -, -, -, hinh, hctr, hccfg, -⟩ | ⟨tgt, -, hwritable, rfl⟩
  · simp only [State.counter, State.counterCfg, hinh, hctr, hccfg, and_self]
  · obtain ⟨-, -, -, -, -, hctr, hccfg, -⟩ := afterAccess_onlyTargetDiffers i tgt s
    have hnj : s.delegated j ≠ true := Bool.eq_false_iff.mp hj
    refine ⟨hctr j ?_, hccfg j ?_, ?_⟩
    · rintro half rfl
      obtain ⟨hd, -⟩ := hwritable
      exact hnj hd
    · rintro half hides rfl
      obtain ⟨-, hd, -⟩ := hwritable
      exact hnj hd
    · exact afterAccess_keeps (fun t => t.mcountinhibit.getLsbD j.val = s.mcountinhibit.getLsbD j.val)
        (fun _ _ _ h => h) (fun v => Target.write_inhibit_of_not_delegated v hwritable hj) rfl

/-! ## CDE in `menvcfg` (R120, R123) -/

section
variable {x : Xlen} {h : Half}

/-- Two values that agree but for the bit that shows bit 60 leave registers that agree but for bit 60. -/
theorem writeHalf_congr_off_enableBit (hb : h = .low ↔ x = .rv64) (old : Word) {v w : Word}
    (hvw : ∀ k, k < xlenBits x → k ≠ enableBit h → v.getLsbD k = w.getLsbD k) {j : Nat} (hj : j < 64) (h60 : j ≠ 60) :
    (writeHalf x h old v).getLsbD j = (writeHalf x h old w).getLsbD j := by
  cases h with
  | low =>
    obtain rfl := hb.mp rfl
    exact hvw j hj h60
  | high =>
    rw [writeHalf_high_getLsbD _ _ _ _ hj, writeHalf_high_getLsbD _ _ _ _ hj]
    split
    · rfl
    · have hx : j - 32 < xlenBits x := Nat.lt_of_lt_of_le (show j - 32 < 32 by omega) (by cases x <;> decide)
      exact hvw (j - 32) hx (by simp only [enableBit]; omega)

/-- Bit 60 shows at one bit of the half that holds it. -/
theorem readHalf_withBit_off_enableBit (hb : h = .low ↔ x = .rv64) (reg : Word) (b : Bool) {k : Nat}
    (hk : k < xlenBits x) (hne : k ≠ enableBit h) :
    (readHalf x h (withBit reg 60 b)).getLsbD k = (readHalf x h reg).getLsbD k := by
  cases h with
  | low =>
    obtain rfl := hb.mp rfl
    exact (withBit_getLsbD reg 60 k b hk).trans (if_neg hne)
  | high =>
    have hx : x = .rv32 := by
      cases x with
      | rv32 => rfl
      | rv64 => exact absurd (hb.mpr rfl) nofun
    subst hx
    simp only [enableBit, xlenBits] at hne hk
    rw [readHalf_high_getLsbD, readHalf_high_getLsbD, withBit_getLsbD _ _ _ _ (by omega), if_neg (by omega)]

end

/-- In M-mode the number of `menvcfg`, or of its high half, reaches it (10_state.md R24, R25). -/
theorem State.access_menvcfg {s : State} {n : CsrNum} {h : Half} {w : Bool} (hn : Csr.ofNumber n = some (.menvcfg h))
    (hm : s.priv = .m) (hh : halfExists s.cfg h = true) : s.access n w = .reach (.menvcfg h) :=
  State.access_machine_level hn (State.mode_of_machine hm) rfl hh rfl

/-- What an access to `menvcfg` leaves there; no other CSR changes. -/
theorem afterAccess_menvcfg (i : Instr) (h : Half) (s : State) :
    let t := afterAccess i (.menvcfg h) s
    t.menvcfg = (if wantsWrite i then writeFieldHalf s.cfg (Target.menvcfg h).tag h 60 s.cfg.hasSmcdeleg s.menvcfg
        (writtenValue i s ((Target.menvcfg h).read s)) else s.menvcfg) ∧
      sameCsrs { s with menvcfg := t.menvcfg } t := by
  refine ⟨?_, afterAccess_keeps (fun t => sameCsrs { s with menvcfg := t.menvcfg } t) (fun _ _ _ h => h)
    (fun _ => sameCsrs_refl _) (sameCsrs_refl s)⟩
  rw [afterAccess_eq]
  cases wantsWrite i <;> rfl

/-- CDE after an access to `menvcfg`, from the bit the access leaves. -/
theorem afterAccess_menvcfg_cde (i : Instr) (h : Half) (s : State) :
    (afterAccess i (.menvcfg h) s).cde = if wantsWrite i
      then s.cfg.hasSmcdeleg && (writeHalf s.cfg.xlen h s.menvcfg
        (writtenValue i s ((Target.menvcfg h).read s))).getLsbD 60
      else s.cde := by
  obtain ⟨hcfg, -⟩ := afterAccess_sameOutside i (.menvcfg h) s
  obtain ⟨hreg, -⟩ := afterAccess_menvcfg i h s
  rw [State.cde, hcfg, hreg]
  split
  · rw [writeFieldHalf_getLsbD_field _ _ _ _ _ _ (by decide), ← Bool.and_assoc, Bool.and_self]
  · rfl

/-- The half of `menvcfg` that holds CDE shows it (R120). -/
theorem Target.read_menvcfg_cde {s : State} {h : Half} (hb : h = .low ↔ s.cfg.xlen = .rv64) :
    ((Target.menvcfg h).read s).getLsbD (enableBit h) = s.cde := by
  rw [Target.read, readHalf_enableBit hb, withBit_getLsbD _ _ _ _ (by decide), if_pos rfl]

/-- A written value that differs from the one read at most in CDE changes no other bit of `menvcfg` (R120). -/
theorem writeHalf_menvcfg_of_unchanged {s : State} {h : Half} (hb : h = .low ↔ s.cfg.xlen = .rv64) {v : Word}
    (hv : ∀ k, k < xlenBits s.cfg.xlen → k ≠ enableBit h → v.getLsbD k = ((Target.menvcfg h).read s).getLsbD k)
    (j : Nat) (hj : j < 64) (h60 : j ≠ 60) :
    (writeHalf s.cfg.xlen h s.menvcfg v).getLsbD j = s.menvcfg.getLsbD j := by
  have hagree : ∀ k, k < xlenBits s.cfg.xlen → k ≠ enableBit h →
      v.getLsbD k = (readHalf s.cfg.xlen h s.menvcfg).getLsbD k := fun k hk hne =>
    (hv k hk hne).trans (readHalf_withBit_off_enableBit hb s.menvcfg s.cde hk hne)
  rw [writeHalf_congr_off_enableBit hb s.menvcfg hagree hj h60, writeHalf_readHalf]

/-- On a 32-bit hart 0x30A reads bits 31:0 of `menvcfg` (10_state.md R25). -/
theorem Target.read_menvcfg_rv32_low {s : State} (hx : s.cfg.xlen = .rv32) :
    (Target.menvcfg .low).read s = (s.menvcfg.extractLsb' 0 32).setWidth 64 := by
  apply BitVec.eq_of_getLsbD_eq
  intro j hj
  rw [Target.read, hx, readHalf_rv32_low_getLsbD, withBit_getLsbD _ _ _ _ hj, BitVec.getLsbD_setWidth,
    BitVec.getLsbD_extractLsb', Nat.zero_add, decide_eq_true hj, Bool.true_and]
  split
  · subst j
    rfl
  · rfl

/-- On a 32-bit hart an access to 0x30A leaves bits 63:32 of `menvcfg`, but for CDE where it is not implemented. -/
theorem afterAccess_menvcfg_rv32_low_getLsbD (i : Instr) {s : State} (hx : s.cfg.xlen = .rv32) {j : Nat} (h32 : 32 ≤ j)
    (h64 : j < 64) (h60 : j ≠ 60) : (afterAccess i (.menvcfg .low) s).menvcfg.getLsbD j = s.menvcfg.getLsbD j := by
  obtain ⟨hreg, -⟩ := afterAccess_menvcfg i .low s
  rw [hreg]
  split
  · rw [writeFieldHalf_rv32_low_getLsbD hx _ _ _ _ _ h32 h64, bne_iff_ne.mpr h60, Bool.true_or, Bool.true_and]
  · rfl

/-- Settles O42: in M-mode the access reaches `menvcfg`, which `writeFieldHalf` writes; below M-mode its level is too
high. -/
theorem cdeIsWrittenInMachineMode : Obligations.CdeIsWrittenInMachineMode := by
  intro i s h hn
  refine ⟨fun hm => ?_, fun hpriv _ hp hb => ?_, fun hpriv _ hp hlow hx => ?_⟩
  · have hl : level i.csrNum = .machine := (Csr.of_number hn).1 nofun
    exact raises_of_denied hn (State.permission_illegal (.inl (.inr (.inl ⟨hl, hm⟩))))
  · obtain ⟨hreg, hframe⟩ := afterAccess_menvcfg i h s
    refine ⟨_, completes_of_reach (State.access_menvcfg hn hpriv (halfExists_of_holdsBit hb)) hp,
      Target.read_menvcfg_cde hb, afterAccess_rd i _ s, ?_, fun hv j hj h60 => ?_, hframe⟩
    · rw [afterAccess_menvcfg_cde, writeHalf_enableBit hb]
      rfl
    · rw [hreg]
      split
      · rw [writeFieldHalf_of_unchanged _ _ (writeHalf_menvcfg_of_unchanged hb hv), withBit_getLsbD _ _ _ _ hj,
          if_neg h60]
      · rfl
  · subst hlow
    obtain ⟨-, hframe⟩ := afterAccess_menvcfg i .low s
    refine ⟨_, completes_of_reach (State.access_menvcfg hn hpriv rfl) hp,
      Target.read_menvcfg_rv32_low hx ▸ afterAccess_rd i _ s, ?_,
      fun j h32 h64 h60 => afterAccess_menvcfg_rv32_low_getLsbD i hx h32 h64 h60, hframe⟩
    rw [afterAccess_menvcfg_cde, hx, writeHalf_rv32_low_getLsbD, if_neg (show ¬ 60 < 32 by decide)]
    exact ite_self _

end Sys2Proof.Machine

/-! PROOFS. The statements of 42_indirect_counter_access.md: which accesses to `sireg*` raise, complete or are out of
scope, what reading and writing a cell of Table 1 does, and that below M-mode no step changes MINH. -/

namespace Sys2Proof.Machine

/-! ## MINH (R149 to R151) -/

/-- A counter is the cycle or the instructions-retired counter, the time counter, or a performance-monitoring counter
(10_state.md R48). -/
theorem CounterIx.fixed_or_time_or_hpm (i : CounterIx) : (i = 0 ∨ i = 2) ∨ i = 1 ∨ 3 ≤ i.val := by
  revert i; decide

/-- Which counters have MINH: an event selector with Sscofpmf, a counter configuration register with Smcntrpmf. -/
theorem hasInhibitBits_iff (c : Config) (i : CounterIx) : hasInhibitBits c i = true ↔
    (3 ≤ i.val ∧ c.hasSscofpmf = true) ∨ ((i = 0 ∨ i = 2) ∧ c.hasSmcntrpmf = true) := by
  unfold hasInhibitBits
  split
  · rename_i hfixed
    have hlt : ¬ 3 ≤ i.val := by rcases hfixed with rfl | rfl <;> decide
    simp [hlt, hfixed]
  · rename_i hfixed
    rcases (CounterIx.fixed_or_time_or_hpm i).resolve_left hfixed with rfl | hge
    · simp
    · have h1 : i ≠ 1 := by rintro rfl; exact absurd hge (by decide)
      simp [hge, h1, hfixed]

theorem minhMask_getLsbD (c : Config) (i : CounterIx) (j : Nat) :
    (minhMask c i).getLsbD j = (hasInhibitBits c i && decide (j = 62)) := by
  unfold minhMask
  cases hasInhibitBits c i with
  | false => exact BitVec.getLsbD_zero
  | true =>
    change (BitVec.twoPow 64 62).getLsbD j = _
    simp only [BitVec.getLsbD_twoPow, Nat.reduceLT, decide_true, eq_comm (a := 62)]

/-- A register without MINH reads 0 there and as it is elsewhere (R149). -/
theorem andNot_minhMask_getLsbD (c : Config) (i : CounterIx) (reg : Word) {j : Nat} (hj : j < 64) :
    (reg &&& ~~~minhMask c i).getLsbD j = (!(hasInhibitBits c i && decide (j = 62)) && reg.getLsbD j) := by
  rw [BitVec.getLsbD_and, BitVec.getLsbD_not, decide_eq_true hj, Bool.true_and, minhMask_getLsbD, Bool.and_comm]

/-- A value with the held MINH put in place of its own (R149). -/
theorem keepMinh_getLsbD (c : Config) (i : CounterIx) (w old : Word) {j : Nat} (hj : j < 64) :
    ((w &&& ~~~minhMask c i) ||| (old &&& minhMask c i)).getLsbD j =
      if hasInhibitBits c i = true ∧ j = 62 then old.getLsbD j else w.getLsbD j := by
  rw [BitVec.getLsbD_or, andNot_minhMask_getLsbD c i w hj, BitVec.getLsbD_and, minhMask_getLsbD]
  by_cases h : hasInhibitBits c i = true ∧ j = 62
  · simp only [h.1, h.2, decide_true, Bool.and_self, Bool.not_true, Bool.false_and, Bool.false_or, Bool.and_true,
      and_self, if_true]
  · have hb : (hasInhibitBits c i && decide (j = 62)) = false := by simpa using h
    simp only [hb, h, Bool.not_false, Bool.true_and, Bool.and_false, Bool.or_false, if_false]

/-- `CFG_LEGAL` does not move MINH when the value to write has the MINH that is held: a mask picks between two equal
bits, and a free legaliser is held to it, on a bit that exists when it is set (R150; log entry 3). -/
theorem cfgLegal_getLsbD_minh {c : Config} {i : CounterIx} {old new : Word} (hi : hasInhibitBits c i = true)
    (hold : old &&& ~~~ccfgBits c i = 0) (hnew : new.getLsbD 62 = old.getLsbD 62) :
    (cfgLegal c i old new).getLsbD 62 = old.getLsbD 62 := by
  cases hl : c.cfgLegal.get i with
  | mask m => rw [cfgLegal_mask_getLsbD hl _ _ (by decide), hnew, ite_self]
  | free id =>
    have hsame : (old ^^^ new) &&& minhMask c i = 0 := by
      apply BitVec.eq_of_getLsbD_eq
      intro j _
      rw [BitVec.getLsbD_and, BitVec.getLsbD_xor, minhMask_getLsbD]
      by_cases h : j = 62
      · subst h
        simp only [hnew, Bool.xor_self, Bool.false_and, BitVec.ofNat_eq_ofNat, BitVec.getLsbD_zero]
      · simp only [h, decide_false, Bool.and_false, BitVec.ofNat_eq_ofNat, BitVec.getLsbD_zero]
    have hexists : old.getLsbD 62 = true → (ccfgBits c i).getLsbD 62 = true := by
      have hbit := congrArg (·.getLsbD 62) hold
      simpa using hbit
    simp only [cfgLegal, hl]
    rw [if_pos hsame, BitVec.getLsbD_and, keepMinh_getLsbD _ _ _ _ (by decide), if_pos ⟨hi, rfl⟩]
    cases hbit : old.getLsbD 62 with
    | false => rfl
    | true => exact hexists hbit

/-- Through the window a write of any value to either half leaves MINH (R150). -/
theorem Target.write_config_keeps_minh {s : State} {i : CounterIx} (hinv : s.Inv) (hi : hasInhibitBits s.cfg i = true)
    (h : Half) (v : Word) :
    (((Target.config i h true).write v s).counterCfg i).getLsbD 62 = (s.counterCfg i).getLsbD 62 := by
  have h1 : i ≠ 1 := by rintro rfl; cases hi
  obtain ⟨-, hold⟩ := hinv.counters i h1
  change ((s.setCounterCfg i _).counterCfg i).getLsbD 62 = _
  rw [State.counterCfg_setCounterCfg, if_pos rfl]
  refine cfgLegal_getLsbD_minh hi hold ?_
  rw [if_pos rfl, keepMinh_getLsbD _ _ _ _ (by decide), if_pos ⟨hi, rfl⟩]

/-! ## No step below M-mode changes MINH (R150, R151, 70_reset_and_hazards.md R233) -/

/-- An overflow sets OF and no other bit (70_reset_and_hazards.md R238). -/
theorem environment_counterCfg_getLsbD (r : Retirement) (s : State) (i : CounterIx) {j : Nat} (hj : j < 63) :
    ((environment r s).counterCfg i).getLsbD j = (s.counterCfg i).getLsbD j := by
  rw [environment_counterCfg]
  split
  · rw [withBit_getLsbD _ _ _ _ (by omega), if_neg (by omega)]
  · rfl

/-- Below M-mode an instruction reaches a configuration register only through the window, where MINH is kept. -/
theorem exec_below_machine_keeps_minh {i : Instr} {s t : State} {j : CounterIx} (hinv : s.Inv) (hm : s.mode ≠ .m)
    (hj : hasInhibitBits s.cfg j = true) (h : exec i s = .next t) :
    (t.counterCfg j).getLsbD 62 = (s.counterCfg j).getLsbD 62 := by
  rcases exec_below_machine_csrs hm h with ⟨-, -, -, -, -, -, hccfg, -⟩ | ⟨tgt, -, hwritable, rfl⟩
  · rw [State.counterCfg, hccfg, State.counterCfg]
  · by_cases hreach : ∃ half hides, tgt = .config j half hides
    · obtain ⟨half, hides, rfl⟩ := hreach
      obtain ⟨rfl, -⟩ := hwritable
      exact afterAccess_keeps (fun t => (t.counterCfg j).getLsbD 62 = (s.counterCfg j).getLsbD 62)
        (fun _ _ _ h => h) (Target.write_config_keeps_minh hinv hj half) rfl
    · obtain ⟨-, -, -, -, -, -, hccfg, -⟩ := afterAccess_onlyTargetDiffers i tgt s
      rw [hccfg j fun half hides he => hreach ⟨half, hides, he⟩]

/-- Settles O40: an instruction below M-mode keeps MINH, a taken LCOFI reaches no configuration register, and the
environment moves OF only. -/
theorem minhIsOutOfReachBelowMachineMode : Obligations.MinhIsOutOfReachBelowMachineMode := by
  intro s t j hinv hm hj h
  rcases step_next_cases h with ⟨l, -, rfl⟩ | ⟨i, u, -, -, hu, rfl⟩
  · obtain ⟨-, -, -, -, -, -, hccfg, -⟩ := takeLcofi_sameCsrs l s
    rw [environment_counterCfg_getLsbD _ _ _ (by decide), State.counterCfg, hccfg, State.counterCfg]
  · rw [environment_counterCfg_getLsbD _ _ _ (by decide)]
    exact exec_below_machine_keeps_minh hinv hm hj hu

/-- Settles O30: the write keeps MINH, the read hides it, and under a mask every other bit is the written one. -/
theorem minhIsHiddenAndKeptThroughTheWindow : Obligations.MinhIsHiddenAndKeptThroughTheWindow := by
  intro s i v hinv hhas
  have hi := (hasInhibitBits_iff s.cfg i).mpr hhas
  refine ⟨fun h => Target.write_config_keeps_minh hinv hi h v, fun hx j hj => ?_, fun hx j hj => ⟨?_, ?_⟩,
    fun m hmask hx j hj h62 => ?_⟩
  · simp only [Target.read, hx, if_true, readHalf_rv64_low]
    rw [andNot_minhMask_getLsbD _ _ _ hj, hi]
    rfl
  · have h62 : j ≠ 62 := by omega
    simp only [Target.read, hx, if_true]
    rw [readHalf_rv32_low_getLsbD, andNot_minhMask_getLsbD _ _ _ (by omega), decide_eq_true hj, decide_eq_false h62,
      Bool.and_false]
    rfl
  · have h62 : (32 + j = 62) = (j = 30) := by simp only [eq_iff_iff]; omega
    simp only [Target.read, if_true]
    rw [readHalf_high_getLsbD, andNot_minhMask_getLsbD _ _ _ (by omega), hi]
    simp only [h62]
    rfl
  · change ((s.setCounterCfg i _).counterCfg i).getLsbD j = _
    rw [State.counterCfg_setCounterCfg, if_pos rfl, State.configWrite, cfgLegal_mask_getLsbD hmask _ _ hj]
    simp only [if_true, keepMinh_getLsbD _ _ _ _ hj, h62, and_false, if_false, hx, writeHalf_rv64_low]

/-! ## The cells of Table 1 (R149) -/

/-- On a 32-bit hart the low half is read as 32 bits, zero-extended (30_encoding.md R89). -/
theorem readHalf_rv32_low_eq (reg : Word) : readHalf .rv32 .low reg = (reg.extractLsb' 0 32).setWidth 64 := by
  apply BitVec.eq_of_getLsbD_eq
  intro j hj
  rw [readHalf_rv32_low_getLsbD, BitVec.getLsbD_setWidth, BitVec.getLsbD_extractLsb', decide_eq_true hj, Nat.zero_add,
    Bool.true_and]

theorem readHalf_high_eq (x : Xlen) (reg : Word) : readHalf x .high reg = (reg.extractLsb' 32 32).setWidth 64 := by
  apply BitVec.eq_of_getLsbD_eq
  intro j hj
  rw [readHalf_high_getLsbD, BitVec.getLsbD_setWidth, BitVec.getLsbD_extractLsb', decide_eq_true hj, Bool.true_and]
  by_cases h : j < 32
  · rw [decide_eq_true h, Bool.true_and]
  · rw [decide_eq_false h, BitVec.getLsbD_of_ge _ _ (by omega), Bool.false_and]

/-- A write of one half on a 32-bit hart puts the written 32 bits beside the half that is kept (R139, R149). -/
theorem writeHalf_rv32_low_eq (reg v : Word) :
    writeHalf .rv32 .low reg v = reg.extractLsb' 32 32 ++ v.extractLsb' 0 32 := by
  apply BitVec.eq_of_getLsbD_eq
  intro j hj
  rw [writeHalf_rv32_low_getLsbD, BitVec.getLsbD_append, BitVec.getLsbD_extractLsb', BitVec.getLsbD_extractLsb']
  split
  · rename_i h
    rw [decide_eq_true h, Bool.true_and, Nat.zero_add]
  · rw [decide_eq_true (show j - 32 < 32 by omega), Bool.true_and, Nat.add_sub_cancel' (by omega)]

theorem writeHalf_high_eq (x : Xlen) (reg v : Word) :
    writeHalf x .high reg v = v.extractLsb' 0 32 ++ reg.extractLsb' 0 32 := by
  apply BitVec.eq_of_getLsbD_eq
  intro j hj
  rw [writeHalf_high_getLsbD _ _ _ _ hj, BitVec.getLsbD_append, BitVec.getLsbD_extractLsb',
    BitVec.getLsbD_extractLsb']
  split
  · rename_i h
    rw [decide_eq_true h, Bool.true_and, Nat.zero_add]
  · rw [decide_eq_true (show j - 32 < 32 by omega), Bool.true_and, Nat.zero_add]

/-- MINH lies in the high half, so that hiding it shows nothing in the low one. -/
theorem readHalf_rv32_low_andNot_minhMask (c : Config) (i : CounterIx) (reg : Word) :
    readHalf .rv32 .low (reg &&& ~~~minhMask c i) = readHalf .rv32 .low reg := by
  apply BitVec.eq_of_getLsbD_eq
  intro j hj
  rw [readHalf_rv32_low_getLsbD, readHalf_rv32_low_getLsbD, andNot_minhMask_getLsbD _ _ _ hj]
  by_cases h62 : j = 62
  · subst h62
    rfl
  · rw [decide_eq_false h62, Bool.and_false, Bool.not_false, Bool.true_and]

/-- A write of the low half has the held MINH already. -/
theorem keepMinh_writeHalf_rv32_low (c : Config) (i : CounterIx) (old v : Word) :
    (writeHalf .rv32 .low old v &&& ~~~minhMask c i) ||| (old &&& minhMask c i) = writeHalf .rv32 .low old v := by
  apply BitVec.eq_of_getLsbD_eq
  intro j hj
  rw [keepMinh_getLsbD _ _ _ _ hj]
  split
  · rename_i h
    rw [h.2, writeHalf_rv32_low_getLsbD, if_neg (by decide)]
  · rfl

/-- Settles O29: `readHalf` and `writeHalf` are the spec's slices and concatenations, and MINH is the spec's mask. -/
theorem cellReadsAndWrites : Obligations.CellReadsAndWrites := by
  intro s i v _
  simp only [← hasInhibitBits_iff]
  have hminh : (if hasInhibitBits s.cfg i = true then 1#64 <<< 62 else 0) = minhMask s.cfg i := rfl
  rw [hminh]
  refine ⟨fun hx => ?_, fun hx => ?_⟩
  · simp only [Target.read, Target.write, State.configWrite, ctrLegal, hx, if_true, readHalf_rv64_low,
      writeHalf_rv64_low, and_self]
  · simp only [Target.read, Target.write, State.configWrite, ctrLegal, hx, if_true,
      readHalf_rv32_low_andNot_minhMask, keepMinh_writeHalf_rv32_low]
    simp only [readHalf_rv32_low_eq, readHalf_high_eq, writeHalf_rv32_low_eq, writeHalf_high_eq, and_self]

/-! ## The exceptions and the cells of the window (R142 to R148, R154) -/

/-- A select value of the window names the counter of its index (R135). -/
theorem toNat_of_inWindow {x : Xlen} {v : Word} (h : inWindow (trunc x v) = true) :
    (trunc x v).toNat = 0x40 + (windowIx v).val := by
  have hix : (windowIx v).val = (trunc x v).toNat % 32 := by
    rw [windowIx, BitVec.val_toFin, BitVec.extractLsb'_toNat, Nat.shiftRight_zero]
    cases x with
    | rv32 =>
      have hm : (0xFFFFFFFF : Word).toNat = 2 ^ 32 - 1 := rfl
      rw [trunc, BitVec.toNat_and, hm, Nat.and_two_pow_sub_one_eq_mod]
      omega
    | rv64 => rfl
  simp only [inWindow, Bool.and_eq_true, decide_eq_true_eq] at h
  omega

/-- What the cells of the cycle and the instructions-retired counter need: footnotes 1 and 4 of Table 1 (R137). -/
theorem windowNeeds_fixed {c : Config} {i : CounterIx} (hi : i = 0 ∨ i = 2) (k : IndirectReg) :
    windowNeeds c i k = true ↔ (k ≠ .reg3 ∧ k ≠ .reg6) ∧ c.hasZicntr = true ∧
      (k = .reg2 ∨ k = .reg5 → c.hasSmcntrpmf = true) := by
  unfold windowNeeds
  cases k <;> simp [hi]

/-- What the cells of a performance-monitoring counter need: footnotes 2 and 3 of Table 1 (R137). -/
theorem windowNeeds_hpm {c : Config} {i : CounterIx} (hi : 3 ≤ i.val) (k : IndirectReg) :
    windowNeeds c i k = true ↔ (k ≠ .reg3 ∧ k ≠ .reg6) ∧ c.hasZihpm = true ∧ (k = .reg5 → c.hasSscofpmf = true) := by
  have hfixed : ¬ (i = 0 ∨ i = 2) := by
    rintro (rfl | rfl) <;> exact absurd hi (by decide)
  unfold windowNeeds
  cases k <;> simp [hfixed]

theorem windowNeeds_of_no_cell (c : Config) (i : CounterIx) {k : IndirectReg} (hk : k = .reg3 ∨ k = .reg6) :
    windowNeeds c i k = false := by
  rcases hk with rfl | rfl <;> rfl

/-- Each check of the window raises an illegal instruction exception, so whichever of them applies, that is raised
(R142 to R146, R148). -/
theorem State.window_illegal {s : State} {k : IndirectReg}
    (h : s.cde = false ∨ ((k = .reg4 ∨ k = .reg5) ∧ s.cfg.xlen = .rv64) ∨ windowIx s.siselect = 1 ∨
      s.mcounteren.getLsbD (windowIx s.siselect).val = false ∨ windowNeeds s.cfg (windowIx s.siselect) k = false) :
    s.window k = .raise .illegal := by
  unfold State.window
  rcases h with hcde | hhigh | h1 | hen | hneeds
  · rw [hcde]
    rfl
  · simp only [if_pos hhigh, ite_self]
  · simp only [if_pos h1, ite_self]
  · simp only [hen, Bool.not_false, if_true, ite_self]
  · simp only [hneeds, Bool.not_false, if_true, ite_self]

/-- Where no check of the window applies, the access reaches the cell of Table 1 (R147). -/
theorem State.window_of_open {s : State} {k : IndirectReg} {tgt : Target} (hcde : s.cde = true)
    (hhigh : ¬ ((k = .reg4 ∨ k = .reg5) ∧ s.cfg.xlen = .rv64)) (h1 : windowIx s.siselect ≠ 1)
    (hen : s.mcounteren.getLsbD (windowIx s.siselect).val = true)
    (hneeds : windowNeeds s.cfg (windowIx s.siselect) k = true) (hcell : windowCell (windowIx s.siselect) k = some tgt) :
    s.window k = .reach tgt := by
  simp only [State.window, hcde, if_neg hhigh, if_neg h1, hen, hneeds, hcell, Bool.not_true, Bool.false_eq_true, if_false]

/-- From M or S mode an access to `sireg*` that no state-enable bit blocks is decided by `siselect`
(40_csr_instructions.md R111). -/
theorem State.access_sireg_host {s : State} {n : CsrNum} {k : IndirectReg} {w : Bool}
    (hn : Csr.ofNumber n = some (.sireg k)) (hv : s.virt = false) (hu : s.priv ≠ .u)
    (hex : s.cfg.hasSscsrind = true) (hst : s.stateenOpen) :
    s.access n w = if s.selectsWindow s.siselect then s.window k else .refuse .otherIndirect := by
  have hvs : s.mode ≠ .vs := by rcases State.mode_of_host hv hu with h | h <;> simp [h]
  rw [State.access_of_permitted hn (State.permission_host hn hv hu (.inl rfl) rfl (.inl hst) hex), State.resolve,
    State.resolveSireg, if_neg hvs]

/-- Settles O27: the access reaches the window, and each clause names one of its checks. -/
theorem windowExceptionList : Obligations.WindowExceptionList := by
  intro i s k hn hv hu hex hst happ hin
  have hix := toNat_of_inWindow hin
  have hraise : s.window k = .raise .illegal → Raises .illegal i s := fun hw =>
    exec_of_raise (by
      rw [State.access_sireg_host hn hv hu hex hst, if_pos ((State.selectsWindow_iff s _).mpr ⟨hin, happ⟩), hw])
  have hneeds : windowNeeds s.cfg (windowIx s.siselect) k = false → Raises .illegal i s := fun h =>
    hraise (State.window_illegal (.inr (.inr (.inr (.inr h)))))
  refine ⟨hix, fun hcde => hraise (State.window_illegal (.inl hcde)), fun hk => hneeds (windowNeeds_of_no_cell _ _ hk),
    fun hk hx => hraise (State.window_illegal (.inr (.inl ⟨hk, hx⟩))), fun h41 => ?_,
    fun hen => hraise (State.window_illegal (.inr (.inr (.inr (.inl hen))))), fun hfixed hmissing => hneeds ?_,
    fun hhpm hmissing => hneeds ?_⟩
  · have h1 : windowIx s.siselect = 1 := by
      rw [h41] at hix
      exact Fin.ext (Nat.add_left_cancel hix).symm
    exact hraise (State.window_illegal (.inr (.inr (.inl h1))))
  · rw [Bool.eq_false_iff, Ne, windowNeeds_fixed hfixed]
    rintro ⟨-, hzicntr, hcfg⟩
    rcases hmissing with h | ⟨hk, h⟩
    · exact Bool.eq_false_iff.mp h hzicntr
    · exact Bool.eq_false_iff.mp h (hcfg hk)
  · rw [Bool.eq_false_iff, Ne, windowNeeds_hpm hhpm]
    rintro ⟨-, hzihpm, hcfg⟩
    rcases hmissing with h | ⟨hk, h⟩
    · exact Bool.eq_false_iff.mp h hzihpm
    · exact Bool.eq_false_iff.mp h (hcfg hk)

/-- CDE reads 1 only with Smcdeleg (41_cde_and_delegation.md R123). -/
theorem State.hasSmcdeleg_of_cde {s : State} (h : s.cde = true) : s.cfg.hasSmcdeleg = true :=
  (Bool.and_eq_true_iff.mp h).1

/-- Settles O28: no check of the window applies, so the access reaches the cell and completes over it. -/
theorem delegatedCounterIsReachedThroughTheWindow : Obligations.DelegatedCounterIsReachedThroughTheWindow := by
  intro i s k hn hv hu hex hst hin hp hcde hk64 hk3 hk6 ix h1 hen hfixed hhpm
  have hsel : s.selectsWindow s.siselect = true :=
    (State.selectsWindow_iff s _).mpr ⟨hin, .inl (State.hasSmcdeleg_of_cde hcde)⟩
  have hhigh : ¬ ((k = .reg4 ∨ k = .reg5) ∧ s.cfg.xlen = .rv64) := by
    rintro ⟨rfl | rfl, hx⟩ <;> rcases hk64 hx with h | h <;> cases h
  have hneeds : windowNeeds s.cfg ix k = true := by
    rcases CounterIx.fixed_or_time_or_hpm ix with h | h | h
    · exact (windowNeeds_fixed h k).mpr ⟨⟨hk3, hk6⟩, hfixed h⟩
    · exact absurd h h1
    · exact (windowNeeds_hpm h k).mpr ⟨⟨hk3, hk6⟩, hhpm h⟩
  have hcell : ∀ tgt, windowCell ix k = some tgt → Completes i s (afterAccess i tgt s) := fun tgt ht =>
    completes_of_reach (by
      rw [State.access_sireg_host hn hv hu hex hst, if_pos hsel, State.window_of_open hcde hhigh h1 hen hneeds ht]) hp
  refine ⟨?_, ?_, ?_, ?_⟩ <;> rintro rfl <;> exact hcell _ rfl

/-! ## Select values without a meaning (R156) -/

/-- From VS-mode an access to `sireg*` that no state-enable bit blocks is decided by `vsiselect`
(44_virtualization.md R171, R174). -/
theorem State.access_sireg_guest {s : State} {n : CsrNum} {k : IndirectReg} {w : Bool}
    (hn : Csr.ofNumber n = some (.sireg k)) (hm : s.mode = .vs) (hex : s.cfg.hasSscsrind = true) (hst : s.stateenOpen) :
    s.access n w = if s.selectsWindow s.vsiselect then (if s.cde then .raise .virtual else .raise .illegal)
      else .refuse .otherIndirect := by
  rw [State.access_of_permitted hn (State.permission_guest hn hm rfl rfl (.inl hst) hex), State.resolve,
    State.resolveSireg, if_pos hm]

/-- From M or HS mode an access to `vsireg*` that no state-enable bit blocks is decided by `vsiselect`
(44_virtualization.md R173). -/
theorem State.access_vsireg_host {s : State} {n : CsrNum} {k : IndirectReg} {w : Bool}
    (hn : Csr.ofNumber n = some (.vsireg k)) (hv : s.virt = false) (hu : s.priv ≠ .u)
    (hex : s.cfg.hasSscsrind = true) (hH : s.cfg.hasH = true) (hst : s.stateenOpen) :
    s.access n w = if s.selectsWindow s.vsiselect then .raise .illegal else .refuse .otherIndirect := by
  have hc : s.csrExists (.vsireg k) = true := Bool.and_eq_true_iff.mpr ⟨hex, hH⟩
  rw [State.access_of_permitted hn (State.permission_host hn hv hu (.inr rfl) rfl (.inl hst) hc), State.resolve,
    State.resolveVsireg]

/-- Settles O31: each of the three accesses is refused where its select register selects no window. -/
theorem outsideTheWindowIsOutOfScope : Obligations.OutsideTheWindowIsOutOfScope := by
  intro i s k hex hst
  refine ⟨fun hv hu hn hout => ?_, fun hv hs _ hn hout => ?_, fun hv hu hH hn hout => ?_⟩
  · exact exec_of_refuse (by
      rw [State.access_sireg_host hn hv hu hex hst, State.selectsWindow_false hout, if_neg Bool.false_ne_true])
  · have hm : s.mode = .vs := by simp only [State.mode, hv, hs]
    exact exec_of_refuse (by
      rw [State.access_sireg_guest hn hm hex hst, State.selectsWindow_false hout, if_neg Bool.false_ne_true])
  · exact exec_of_refuse (by
      rw [State.access_vsireg_host hn hv hu hex hH hst, State.selectsWindow_false hout, if_neg Bool.false_ne_true])

end Sys2Proof.Machine

/-! PROOFS. The statements of 43_scountinhibit.md: which accesses to `scountinhibit` raise, what it shows and writes of
`mcountinhibit`, and that no guest reaches the counters behind it. -/

namespace Sys2Proof.Machine

/-! ## The access to `scountinhibit` (R160, R163, R164, R166, R167) -/

theorem names_scountinhibit {i : Instr} (h : i.csrNum = 0x120) : names i .scountinhibit := by
  rw [names, h]
  decide

/-- `scountinhibit` exists exactly while CDE = 1, which Smcdeleg alone allows (40_csr_instructions.md R112). -/
theorem State.csrExists_scountinhibit (s : State) : s.csrExists .scountinhibit = s.cde := by
  simp only [State.csrExists, State.cde, Bool.and_self_left]

/-- With CDE = 1 VS-mode passes every check and is stopped where the number is resolved; VU-mode is stopped by the level
of the number (R164). -/
theorem State.access_scountinhibit_guest {s : State} {n : CsrNum} {w : Bool}
    (hn : Csr.ofNumber n = some .scountinhibit) (hcde : s.cde = true) (hm : s.mode = .vs ∨ s.mode = .vu) :
    s.access n w = .raise .virtual := by
  have hex : s.csrExists .scountinhibit = true := s.csrExists_scountinhibit.trans hcde
  rcases hm with hvs | hvu
  · obtain ⟨hv, -⟩ := State.mode_of_guest (.inl hvs)
    rw [State.access_of_permitted hn (State.permission_guest hn hvs rfl rfl (.inr rfl) hex), State.resolve, if_pos hv]
  · exact State.access_of_denied hn (State.permission_virtual hn (.inr hvu) hex nofun rfl
      (s.mstateenBlocks_of_not_gated rfl) (.inr (.inl ⟨hvu, rfl⟩)))

/-- From U-mode the supervisor level of the number stops the access (R166). -/
theorem State.access_scountinhibit_user {s : State} {n : CsrNum} {w : Bool}
    (hn : Csr.ofNumber n = some .scountinhibit) (hm : s.mode = .u) : s.access n w = .raise .illegal := by
  have hl : level n = .supervisor := (Csr.of_number hn).1 nofun
  exact State.access_of_denied hn (State.permission_illegal (.inl (.inr (.inr (.inl ⟨hm, .inl hl⟩)))))

/-- From M or S mode with CDE = 1 the access reaches the masked view; no state-enable bit gates it (R161, R167). -/
theorem State.access_scountinhibit_host {s : State} {n : CsrNum} {w : Bool}
    (hn : Csr.ofNumber n = some .scountinhibit) (hcde : s.cde = true) (hv : s.virt = false) (hu : s.priv ≠ .u) :
    s.access n w = .reach .scountinhibit :=
  State.access_host hn hv hu (.inl rfl) rfl rfl (s.csrExists_scountinhibit.trans hcde) (by
    rw [State.resolve, hv, if_neg Bool.false_ne_true])

/-- Settles O32: with CDE = 0 the register does not exist, which is checked first; with CDE = 1 a guest is stopped. -/
theorem scountinhibitExceptions : Obligations.ScountinhibitExceptions := by
  intro i s h
  have hn := names_scountinhibit h
  exact ⟨fun hcde => raises_of_not_csrExists hn (s.csrExists_scountinhibit.trans hcde),
    fun hcde hm => exec_of_raise (State.access_scountinhibit_guest hn hcde hm)⟩

/-- Settles O33: the level of the number stops U-mode, and from M or S mode the access reaches the view. -/
theorem scountinhibitIsASupervisorRegister : Obligations.ScountinhibitIsASupervisorRegister := by
  intro i s h hcde
  have hn := names_scountinhibit h
  exact ⟨fun hm => exec_of_raise (State.access_scountinhibit_user hn hm),
    fun hv hu hp => completes_of_reach (State.access_scountinhibit_host hn hcde hv hu) hp⟩

/-! ## The masked view (R161, R162) -/

/-- After an access, a bit of `mcountinhibit` that is delegated and writable holds the written bit, every other bit what
it held. -/
theorem afterAccess_scountinhibit_getLsbD (i : Instr) (s : State) (j : Nat) (hj : j < 32) :
    (afterAccess i .scountinhibit s).mcountinhibit.getLsbD j =
      if wantsWrite i && s.mcounteren.getLsbD j && s.cfg.mcountinhibitWmask.getLsbD j
      then (writtenValue i s ((s.mcountinhibit &&& s.mcounteren).setWidth 64)).getLsbD j
      else s.mcountinhibit.getLsbD j := by
  have hx : j < xlenBits s.cfg.xlen := Nat.lt_of_lt_of_le hj (by cases s.cfg.xlen <;> decide)
  cases hw : wantsWrite i with
  | true =>
    rw [afterAccess_of_write _ s hw]
    change (s.scountinhibitWrite _).getLsbD j = _
    rw [State.scountinhibitWrite_eq, writeBits32_getLsbD _ _ _ hj, BitVec.getLsbD_and, trunc_getLsbD,
      decide_eq_true hx, Bool.true_and, Bool.true_and]
    rfl
  | false =>
    rw [afterAccess_of_read _ s hw]
    rfl

/-- Settles O34: the access reaches the view, which reads and writes `mcountinhibit` through `mcounteren`. -/
theorem scountinhibitIsAMaskedView : Obligations.ScountinhibitIsAMaskedView := by
  intro i s h hcde hv hu hp
  have ha : s.access i.csrNum (wantsWrite i) = .reach .scountinhibit :=
    State.access_scountinhibit_host (names_scountinhibit h) hcde hv hu
  exact ⟨_, completes_of_reach ha hp, afterAccess_rd i _ s, afterAccess_scountinhibit_getLsbD i s,
    afterAccess_keeps (fun t => sameCsrs { s with mcountinhibit := t.mcountinhibit } t) (fun _ _ _ h => h)
      (fun _ => sameCsrs_refl _) (sameCsrs_refl s)⟩

/-! ## Guests (R164, 44_virtualization.md R171 to R174) -/

/-- Two states agree on the counters, the configuration registers, `mcountinhibit` and `siselect`. -/
def sameCounterState (s t : State) : Prop :=
  t.ctr = s.ctr ∧ t.ccfg = s.ccfg ∧ t.mcountinhibit = s.mcountinhibit ∧ t.siselect = s.siselect

/-- The targets that hold counter state are writable below M-mode with `V` = 0 only. -/
theorem Target.write_sameCounterState_of_guest {tgt : Target} {s : State} (v : Word) (hv : s.virt = true)
    (hwritable : writableBelowMachine s tgt) : sameCounterState s (tgt.write v s) := by
  have hnv : s.virt ≠ false := hv.trans_ne nofun
  cases tgt with
  | counter j h =>
    obtain ⟨-, hhost⟩ := hwritable
    exact absurd hhost hnv
  | config j h hides =>
    obtain ⟨-, -, hhost⟩ := hwritable
    exact absurd hhost hnv
  | scountinhibit =>
    obtain ⟨hhost, -⟩ := hwritable
    exact absurd hhost hnv
  | siselect => exact absurd hwritable hnv
  | mcountinhibit => exact hwritable.elim
  | _ => exact ⟨rfl, rfl, rfl, rfl⟩

/-- Settles O41: an instruction of a guest raises, reads, or writes a target that holds no counter state. -/
theorem guestChangesNoCounterState : Obligations.GuestChangesNoCounterState := by
  intro i s t hm h
  obtain ⟨hv, hnm, -⟩ := State.mode_of_guest hm
  rcases exec_below_machine_csrs hnm h with ⟨-, -, -, -, hinh, hctr, hccfg, hsel, -⟩ | ⟨tgt, -, hwritable, rfl⟩
  · exact ⟨hctr, hccfg, hinh, hsel⟩
  · exact afterAccess_keeps (sameCounterState s) (fun _ _ _ h => h)
      (fun v => Target.write_sameCounterState_of_guest v hv hwritable) ⟨rfl, rfl, rfl, rfl⟩

end Sys2Proof.Machine

/-! PROOFS. The statements of 44_virtualization.md: which accesses to the indirect CSRs raise with the hypervisor
extension, and the outcome and the value of an access to `scountovf`. -/

namespace Sys2Proof.Machine

/-! ## The indirect CSRs (R172 to R175) -/

/-- A register that `mstateen0[60]` gates is read-write (10_state.md R23). -/
theorem Csr.readOnly_of_gatedByMstateen {c : Csr} (h : gatedByMstateen c = true) : c.readOnly = false := by
  cases c with
  | scountovf | userCounter i h => cases h
  | _ => rfl

/-- From VS or VU mode an indirect CSR of too high a level raises a virtual instruction exception, unless
`mstateen0[60]`, which is checked first, makes it an illegal one (40_csr_instructions.md R108 steps 4 to 6). -/
theorem raises_of_guest_level {i : Instr} {s : State} {c : Csr} (hn : names i c) (hm : s.mode = .vs ∨ s.mode = .vu)
    (hex : s.csrExists c = true) (hg : gatedByMstateen c = true)
    (hl : c.level = .hypervisor ∨ (s.mode = .vu ∧ c.level = .supervisor)) :
    if s.cfg.hasSmstateen = true ∧ s.mstateen0.getLsbD 60 = false then Raises .illegal i s
    else Raises .virtual i s := by
  obtain ⟨-, hnm, -⟩ := State.mode_of_guest hm
  have hblocks : s.mstateenBlocks c = true ↔ s.cfg.hasSmstateen = true ∧ s.mstateen0.getLsbD 60 = false := by
    simp [State.mstateenBlocks, hnm, hg]
  split
  · rename_i hclosed
    exact raises_of_denied hn (State.permission_illegal (.inr (hblocks.mpr hclosed)))
  · rename_i hopen
    have hlm : c.level ≠ .machine := by rcases hl with h | ⟨-, h⟩ <;> rw [h] <;> nofun
    exact raises_of_denied hn (State.permission_virtual hn hm hex hlm (Csr.readOnly_of_gatedByMstateen hg)
      (Bool.eq_false_iff.mpr (mt hblocks.mp hopen)) (hl.imp_right .inl))

/-- Settles O36: both registers are of supervisor level, which is too high for VU-mode. -/
theorem virtualUserIndirectAccessRaises : Obligations.VirtualUserIndirectAccessRaises := by
  intro i s c hn hind hm hc
  obtain ⟨hex, hg, hl⟩ : s.csrExists c = true ∧ gatedByMstateen c = true ∧ c.level = .supervisor := by
    rcases hc with rfl | ⟨k, rfl⟩ <;> exact ⟨hind, rfl, rfl⟩
  exact raises_of_guest_level hn (.inr hm) hex hg (.inr ⟨hm, hl⟩)

/-- Settles O35: a guest is stopped by the hypervisor level of the number; an access that passes the checks is decided
by `vsiselect`. -/
theorem virtualizedIndirectAccessOutcomes : Obligations.VirtualizedIndirectAccessOutcomes := by
  intro i s c hn hind hH
  have hex : s.csrExists .vsiselect = true := Bool.and_eq_true_iff.mpr ⟨hind, hH⟩
  have hselects : s.windowApplies → inWindow (trunc s.cfg.xlen s.vsiselect) = true →
      s.selectsWindow s.vsiselect = true := fun happ hin => (State.selectsWindow_iff s _).mpr ⟨hin, happ⟩
  refine ⟨fun hm hc => ?_, fun hv hu hst happ hc hin => ?_, fun hv hu hst hc hp => ?_, fun hm hst happ hc hin => ?_⟩
  · obtain ⟨hexc, hg, hl⟩ : s.csrExists c = true ∧ gatedByMstateen c = true ∧ c.level = .hypervisor := by
      rcases hc with rfl | ⟨k, rfl⟩ <;> exact ⟨hex, rfl, rfl⟩
    exact raises_of_guest_level hn hm hexc hg (.inl hl)
  · obtain ⟨k, rfl⟩ := hc
    exact exec_of_raise (by rw [State.access_vsireg_host hn hv hu hind hH hst, if_pos (hselects happ hin)])
  · subst hc
    have hperm := State.permission_host (w := wantsWrite i) hn hv hu (.inr rfl) rfl (.inl hst) hex
    exact completes_of_reach (by rw [State.access_of_permitted hn hperm, State.resolve]) hp
  · obtain ⟨k, rfl⟩ := hc
    have ha := State.access_sireg_guest (w := wantsWrite i) hn hm hind hst
    rw [if_pos (hselects happ hin)] at ha
    split at ha <;> rename_i hcde
    · rw [if_pos hcde]
      exact exec_of_raise ha
    · rw [if_neg hcde]
      exact exec_of_raise ha

/-! ## `scountovf` (R177) -/

theorem names_scountovf {i : Instr} (h : i.csrNum = 0xDA0) : names i .scountovf := by
  rw [names, h]
  decide

/-- A read of `scountovf`, where it exists, is stopped by its supervisor level alone: illegal from U-mode, virtual from
VU-mode. -/
theorem State.permission_scountovf_read {s : State} {n : CsrNum} (hn : Csr.ofNumber n = some .scountovf)
    (hex : s.cfg.hasSscofpmf = true) : s.permission n .scountovf false =
      if s.mode = .u then some .illegal else if s.mode = .vu then some .virtual else none := by
  have hl : level n = .supervisor := (Csr.of_number hn).1 nofun
  have hb : s.hstateenBlocks .scountovf = false := Bool.and_false _
  simp [State.permission, State.csrExists, hex, hl, hb, s.mstateenBlocks_of_not_gated (c := .scountovf) rfl]

/-- A read of `scountovf` that is permitted reaches it, but from VS-mode with CDE = 1. -/
theorem State.access_scountovf_read {s : State} {n : CsrNum} (hn : Csr.ofNumber n = some .scountovf)
    (hex : s.cfg.hasSscofpmf = true) (hu : s.mode ≠ .u) (hvu : s.mode ≠ .vu) : s.access n false =
      if s.mode = .vs ∧ s.cfg.hasSmcdeleg ∧ s.cde then .raise .virtual else .reach .scountovf := by
  have hp := State.permission_scountovf_read hn hex
  rw [if_neg hu, if_neg hvu] at hp
  rw [State.access_of_permitted hn hp, State.resolve]

/-- A bit of `scountovf` shows OF of its counter through the enable registers of the mode (10_state.md R39). -/
theorem State.overflowView_getLsbD {s : State} (hvu : s.mode ≠ .vu) (hu : s.mode ≠ .u) (j : CounterIx) :
    s.overflowView.getLsbD j.val = (s.overflowFlag j
      && (decide (s.mode = .m) || s.mcounteren.getLsbD j.val)
      && (decide (s.mode ≠ .vs) || s.hcounteren.getLsbD j.val)) := by
  unfold State.overflowView
  cases hm : s.mode with
  | m | s | vs => simp [BitVec.getLsbD_and, bitsOf_getLsbD, -BitVec.getLsbD_eq_getElem]
  | u => exact absurd hm hu
  | vu => exact absurd hm hvu

/-- With Sscofpmf the counters from 3 up have OF (10_state.md R30). -/
theorem State.overflowFlag_eq {s : State} (hex : s.cfg.hasSscofpmf = true) (j : CounterIx) :
    s.overflowFlag j = (decide (3 ≤ j.val) && (s.counterCfg j).getLsbD 63) := by
  rw [State.overflowFlag, hasOverflowFlag, hex, Bool.and_true]

/-- Settles O37: the checks of permission give the rows that raise, but for VS-mode with CDE = 1, which is stopped where
the number is resolved; a read that completes gives the view of its mode. -/
theorem scountovfOutcomes : Obligations.ScountovfOutcomes := by
  intro i s h
  have hn := names_scountovf h
  refine ⟨fun hex => raises_of_not_csrExists hn hex, fun hm => ?_, fun hw => ?_, fun hex hw => ⟨fun hm => ?_,
    fun hm hdeleg hcde => ?_, fun hp hm => ?_⟩⟩
  · have hl : level i.csrNum = .supervisor := (Csr.of_number hn).1 nofun
    exact raises_of_denied hn (State.permission_illegal (.inl (.inr (.inr (.inl ⟨hm, .inl hl⟩)))))
  · have hro : readOnlyNumber i.csrNum = true := (Csr.of_number hn).2.1
    exact raises_of_denied hn (State.permission_illegal (.inl (.inr (.inr (.inr ⟨hw, hro⟩)))))
  · exact raises_of_denied hn (by rw [hw, State.permission_scountovf_read hn hex, hm]; rfl)
  · exact exec_of_raise (by
      rw [hw, State.access_scountovf_read hn hex (hm ▸ nofun) (hm ▸ nofun), if_pos ⟨hm, hdeleg, hcde⟩])
  · obtain ⟨hu, hvu, hopen⟩ :
        s.mode ≠ .u ∧ s.mode ≠ .vu ∧ ¬ (s.mode = .vs ∧ s.cfg.hasSmcdeleg = true ∧ s.cde = true) := by
      rcases hm with hm | hm | ⟨hm, hcde⟩ <;> simp [*]
    have ha : s.access i.csrNum (wantsWrite i) = .reach .scountovf := by
      rw [hw, State.access_scountovf_read hn hex hu hvu, if_neg hopen]
    refine ⟨s.overflowView, fun j => ?_, ?_⟩
    · rw [State.overflowView_getLsbD hvu hu, State.overflowFlag_eq hex]
    · have hc := completes_of_reach ha hp
      rwa [afterAccess_of_read _ s hw] at hc

end Sys2Proof.Machine

/-! PROOFS. The statements of 45_lcofi.md: the LCOFI bits that M-mode and the hypervisor hold, the optional delegation
bits, the supervisor and the guest views of bit 13, and the mode a pending LCOFI goes to. -/

namespace Sys2Proof.Machine

/-! ## Bit 13 of an interrupt register -/

theorem trunc_withBit_getLsbD_13 (x : Xlen) (w : Word) (b : Bool) : (trunc x (withBit w 13 b)).getLsbD 13 = b := by
  rw [trunc_getLsbD_13, withBit_getLsbD_13]

theorem writeLcofiReg_getLsbD_13 (c : Config) (tag : Nat) (impl : Bool) (old v : Word) :
    (writeLcofiReg c tag impl old v).getLsbD 13 = (impl && v.getLsbD 13) :=
  withBit_getLsbD_13 _ _

theorem ite_withBit_getLsbD_13 (p : Bool) (w : Word) (b : Bool) :
    (if p then withBit w 13 b else w).getLsbD 13 = if p then b else w.getLsbD 13 := by
  cases p with
  | false => rfl
  | true => exact withBit_getLsbD_13 w b

/-- What an observation of the state gives after an access, when the general registers and `pc` have no part in it. -/
theorem afterAccess_apply {α : Type} (f : State → α) (hf : ∀ t r v pc, f { t.setReg r v with pc := pc } = f t)
    (i : Instr) (tgt : Target) (s : State) :
    f (afterAccess i tgt s) = if wantsWrite i then f (tgt.write (writtenValue i s (tgt.read s)) s) else f s := by
  rw [afterAccess_eq, hf]
  split <;> rfl

/-- The general registers and `pc` have no part in what a target reads. -/
theorem Target.read_setReg (tgt : Target) (s : State) (r : Reg) (v pc : Word) :
    tgt.read { s.setReg r v with pc := pc } = tgt.read s := by
  cases tgt <;> rfl

/-! ## The registers that hold the bit (R185, R186) -/

/-- Bit 13 of `mvien`, `mvip`, `hvien` or `hvip` is implemented (10_state.md R43, R44). -/
def Target.implementsLcofi (c : Config) : Target → Bool
  | .mvien | .mvip => hasMvLcofi c
  | .hvien => hasHvienLcofi c
  | .hvip => hasHvipLcofi c
  | _ => false

/-- Where the bit is implemented it reads what was written. -/
theorem Target.read_write_lcofi {tgt : Target} {s : State} (h : tgt.implementsLcofi s.cfg = true) (v : Word) :
    (tgt.read (tgt.write v s)).getLsbD 13 = v.getLsbD 13 := by
  cases tgt with
  | mvien | mvip | hvien | hvip =>
    simp only [Target.implementsLcofi] at h
    simp only [Target.read, Target.write, State.mvienLcofi, State.mvipLcofi, State.hvienLcofi, State.hvipLcofi,
      trunc_withBit_getLsbD_13, writeLcofiReg_getLsbD_13, h, Bool.true_and]
  | _ => cases h

/-- An access that reaches such a register completes and leaves the written bit there, or the one there was. -/
theorem lcofi_held_of_reach {i : Instr} {tgt : Target} {s : State} (h : tgt.implementsLcofi s.cfg = true)
    (ha : s.access i.csrNum (wantsWrite i) = .reach tgt) (hp : s.pcInRange) :
    ∃ t, Completes i s t ∧ (tgt.read t).getLsbD 13 =
      if wantsWrite i then (writtenValue i s (tgt.read s)).getLsbD 13 else (tgt.read s).getLsbD 13 := by
  refine ⟨_, completes_of_reach ha hp, ?_⟩
  rw [afterAccess_apply (fun t => (tgt.read t).getLsbD 13) (fun t r v pc => by rw [Target.read_setReg])]
  simp only [Target.read_write_lcofi h]

/-- The condition of R185. -/
theorem hasMvLcofi_of_extensions {c : Config} (hdeleg : c.hasSmcdeleg = true) (hof : c.hasSscofpmf = true)
    (hm : c.hasSmaia = true) : hasMvLcofi c = true := by
  simp only [hasMvLcofi, hdeleg, hof, hm, Bool.and_self, Bool.true_or]

/-- The condition of R186. -/
theorem hasHvLcofi_of_extensions {c : Config} (hdeleg : c.hasSmcdeleg = true) (hof : c.hasSscofpmf = true)
    (hm : c.hasSmaia = true) (hs : c.hasSsaia = true) (hH : c.hasH = true) :
    hasHvienLcofi c = true ∧ hasHvipLcofi c = true := by
  simp only [hasHvienLcofi, hasHvipLcofi, hdeleg, hof, hm, hs, hH, Bool.and_self, Bool.true_or, and_self]

/-- Settles O48: both numbers are of machine level, and reach a register that implements the bit. -/
theorem machineLcofiBitsAreHeld : Obligations.MachineLcofiBitsAreHeld := by
  intro i s hdeleg hof hmaia
  have himpl := hasMvLcofi_of_extensions hdeleg hof hmaia
  refine ⟨fun hn hm => ?_, fun tgt hn hpriv _ hp => ?_⟩
  · obtain ⟨c, hc, hl⟩ : ∃ c, names i c ∧ level i.csrNum = .machine := by
      rcases hn with hn | hn <;> exact ⟨_, hn, (Csr.of_number hn).1 nofun⟩
    exact raises_of_denied hc (State.permission_illegal (.inl (.inr (.inl ⟨hl, hm⟩))))
  · have hm := State.mode_of_machine hpriv
    rcases hn with ⟨hn, rfl⟩ | ⟨hn, rfl⟩ <;>
      exact lcofi_held_of_reach himpl (State.access_machine_level hn hm rfl hmaia rfl) hp

/-- Settles O49: both numbers are of hypervisor level, and from M or HS mode reach a register that implements the
bit. -/
theorem hypervisorLcofiBitsAreHeld : Obligations.HypervisorLcofiBitsAreHeld := by
  intro i s hdeleg hof hmaia hsaia hH
  obtain ⟨himplEn, himplIp⟩ := hasHvLcofi_of_extensions hdeleg hof hmaia hsaia hH
  have hexEn : s.csrExists .hvien = true := Bool.and_eq_true_iff.mpr ⟨hsaia, hH⟩
  have hexIp : s.csrExists .hvip = true := hH
  refine ⟨fun hn => ?_, fun tgt hn hv hu hp => ?_⟩
  · obtain ⟨c, hc, hex, hl, hro, hg⟩ : ∃ c, names i c ∧ s.csrExists c = true ∧ c.level = .hypervisor ∧
        c.readOnly = false ∧ gatedByMstateen c = false := by
      rcases hn with hn | hn
      · exact ⟨_, hn, hexEn, rfl, rfl, rfl⟩
      · exact ⟨_, hn, hexIp, rfl, rfl, rfl⟩
    have hln : level i.csrNum = .hypervisor :=
      ((Csr.of_number hc).1 (by rintro rfl; cases hex)).trans hl
    exact ⟨fun hm => raises_of_denied hc (State.permission_illegal (.inl (.inr (.inr (.inl ⟨hm, .inr hln⟩))))),
      fun hm => raises_of_denied hc (State.permission_virtual hc hm hex (hl ▸ nofun) hro
        (s.mstateenBlocks_of_not_gated hg) (.inl hl))⟩
  · rcases hn with ⟨hn, rfl⟩ | ⟨hn, rfl⟩
    · exact lcofi_held_of_reach himplEn (State.access_host hn hv hu (.inr rfl) rfl rfl hexEn rfl) hp
    · exact lcofi_held_of_reach himplIp (State.access_host hn hv hu (.inr rfl) rfl rfl hexIp rfl) hp

/-! ## The optional delegation bits (R188) -/

theorem Target.write_mideleg_lcofi (v : Word) (s : State) : (Target.mideleg.write v s).midelegLcofi =
    (s.cfg.hasSMode && (s.cfg.mideleg13Writable && v.getLsbD 13)) := by
  simp only [State.midelegLcofi, Target.write, writeLcofiReg_getLsbD_13, Bool.and_assoc, Bool.and_self_left]

theorem Target.write_hideleg_lcofi (v : Word) (s : State) : (Target.hideleg.write v s).hidelegLcofi =
    (s.cfg.hasH && (s.cfg.hideleg13Writable && v.getLsbD 13)) := by
  simp only [State.hidelegLcofi, Target.write, writeLcofiReg_getLsbD_13, Bool.and_assoc, Bool.and_self_left]

/-- Without its parameter the bit reads zero, whatever the register holds (10_state.md R46). -/
theorem Target.read_delegation_of_not_writable (s : State) :
    (s.cfg.mideleg13Writable = false → (Target.mideleg.read s).getLsbD 13 = false) ∧
    (s.cfg.hideleg13Writable = false → (Target.hideleg.read s).getLsbD 13 = false) := by
  simp +contextual only [Target.read, trunc_withBit_getLsbD_13, State.midelegLcofi, State.hidelegLcofi, Bool.and_false,
    Bool.false_and, implies_true, and_self]

/-- Settles O50: the access reaches the register, whose bit a write legalises by the parameter. -/
theorem optionalDelegationBits : Obligations.OptionalDelegationBits := by
  intro i s hv hp
  refine ⟨fun hn hpriv hS => ?_, fun hn hu hH => ?_⟩
  · have ha : s.access i.csrNum (wantsWrite i) = .reach .mideleg :=
      State.access_machine_level hn (State.mode_of_machine hpriv) rfl hS rfl
    obtain ⟨hcfg, -⟩ := afterAccess_sameOutside i .mideleg s
    obtain ⟨hzero, -⟩ := Target.read_delegation_of_not_writable (afterAccess i .mideleg s)
    refine ⟨_, completes_of_reach ha hp, ?_, hcfg ▸ hzero⟩
    rw [afterAccess_apply State.midelegLcofi (fun _ _ _ _ => rfl), Target.write_mideleg_lcofi, hS, Bool.true_and]
  · have ha : s.access i.csrNum (wantsWrite i) = .reach .hideleg :=
      State.access_host hn hv hu (.inr rfl) rfl rfl hH rfl
    obtain ⟨hcfg, -⟩ := afterAccess_sameOutside i .hideleg s
    obtain ⟨-, hzero⟩ := Target.read_delegation_of_not_writable (afterAccess i .hideleg s)
    refine ⟨_, completes_of_reach ha hp, ?_, hcfg ▸ hzero⟩
    rw [afterAccess_apply State.hidelegLcofi (fun _ _ _ _ => rfl), Target.write_hideleg_lcofi, hH, Bool.true_and]

/-! ## The views under the default relation (R189, R190) -/

/-- Where `mvien[13]` is set `mvip[13]` is implemented, and where `hvien[13]` is set `hvip[13]` is (10_state.md R43,
R44). -/
theorem State.implemented_of_forwarded (s : State) :
    (s.mvienLcofi = true → hasMvLcofi s.cfg = true) ∧ (s.hvienLcofi = true → hasHvipLcofi s.cfg = true) := by
  simp only [State.mvienLcofi, State.hvienLcofi, hasHvienLcofi, Bool.and_eq_true]
  exact ⟨fun h => h.1, fun h => h.1.2⟩

section
variable {s : State} (h : hasDefaultViews s.cfg = true)
include h

theorem State.sipLcofi_of_views :
    s.sipLcofi = if s.midelegLcofi then s.mip.getLsbD 13 else (s.mvienLcofi && s.mvipLcofi) := by
  rw [State.sipLcofi, h]
  cases s.mvienLcofi <;> rfl

theorem State.sieLcofi_of_views :
    s.sieLcofi = if s.midelegLcofi then s.mie.getLsbD 13 else (s.mvienLcofi && s.sie.getLsbD 13) := by
  rw [State.sieLcofi, h]
  cases s.mvienLcofi <;> rfl

theorem State.vsipLcofi_of_views :
    s.vsipLcofi = if s.hidelegLcofi then s.sipLcofi else (s.hvienLcofi && s.hvipLcofi) := by
  rw [State.vsipLcofi, h]
  cases s.hvienLcofi <;> rfl

theorem State.vsieLcofi_of_views :
    s.vsieLcofi = if s.hidelegLcofi then s.sieLcofi else (s.hvienLcofi && s.vsie.getLsbD 13) := by
  rw [State.vsieLcofi, h]
  cases s.hvienLcofi <;> rfl

/-- A write of `sip[13]` reaches the bit shown. -/
theorem State.setSipLcofi_of_views (b : Bool) :
    ((s.setSipLcofi b).mip.getLsbD 13 = if s.midelegLcofi then b else s.mip.getLsbD 13) ∧
    (s.setSipLcofi b).mvipLcofi = if !s.midelegLcofi && s.mvienLcofi then b else s.mvipLcofi := by
  obtain ⟨himpl, -⟩ := s.implemented_of_forwarded
  simp only [State.setSipLcofi, State.mvipLcofi, h, Bool.true_and, ite_withBit_getLsbD_13, true_and]
  split
  · rename_i hfwd
    rw [himpl (Bool.and_eq_true_iff.mp hfwd).2, Bool.true_and]
  · rfl

/-- A write of `sie[13]` reaches the bit shown. -/
theorem State.setSieLcofi_of_views (b : Bool) :
    ((s.setSieLcofi b).mie.getLsbD 13 = if s.midelegLcofi then b else s.mie.getLsbD 13) ∧
    (s.setSieLcofi b).sie.getLsbD 13 = if !s.midelegLcofi && s.mvienLcofi then b else s.sie.getLsbD 13 := by
  simp only [State.setSieLcofi, h, Bool.true_and, Bool.not_true, Bool.false_or, ite_withBit_getLsbD_13, and_self]

/-- A write of `vsip[13]` reaches what a write of `sip[13]` does with `hideleg[13]` = 1, and else `hvip[13]` (R191). -/
theorem State.setVsipLcofi_of_views (b : Bool) :
    ((s.setVsipLcofi b).hvipLcofi = if !s.hidelegLcofi && s.hvienLcofi then b else s.hvipLcofi) ∧
    ((s.setVsipLcofi b).mip.getLsbD 13 = if s.hidelegLcofi && s.midelegLcofi then b else s.mip.getLsbD 13) ∧
    (s.setVsipLcofi b).mvipLcofi =
      if s.hidelegLcofi && !s.midelegLcofi && s.mvienLcofi then b else s.mvipLcofi := by
  cases hd : s.hidelegLcofi with
  | true =>
    have hsip := State.setSipLcofi_of_views h b
    simp only [State.setVsipLcofi, State.mvipLcofi, h, hd, Bool.true_and, if_true] at hsip ⊢
    exact ⟨rfl, hsip⟩
  | false =>
    obtain ⟨-, himpl⟩ := s.implemented_of_forwarded
    simp only [State.setVsipLcofi, State.hvipLcofi, h, hd, Bool.true_and, Bool.not_false, ite_withBit_getLsbD_13]
    refine ⟨?_, rfl, rfl⟩
    split
    · rename_i hfwd
      rw [himpl hfwd, Bool.true_and]
    · rfl

/-- A write of `vsie[13]` reaches what a write of `sie[13]` does with `hideleg[13]` = 1, and else its own bit. -/
theorem State.setVsieLcofi_of_views (b : Bool) :
    ((s.setVsieLcofi b).vsie.getLsbD 13 = if !s.hidelegLcofi && s.hvienLcofi then b else s.vsie.getLsbD 13) ∧
    ((s.setVsieLcofi b).mie.getLsbD 13 = if s.hidelegLcofi && s.midelegLcofi then b else s.mie.getLsbD 13) ∧
    (s.setVsieLcofi b).sie.getLsbD 13 =
      if s.hidelegLcofi && !s.midelegLcofi && s.mvienLcofi then b else s.sie.getLsbD 13 := by
  cases hd : s.hidelegLcofi with
  | true =>
    simp only [State.setVsieLcofi, h, hd, Bool.true_and, if_true]
    exact ⟨rfl, State.setSieLcofi_of_views h b⟩
  | false =>
    simp only [State.setVsieLcofi, h, hd, Bool.not_true, Bool.false_or, ite_withBit_getLsbD_13, true_and]
    exact ⟨rfl, rfl⟩

theorem Target.write_sip_of_views (v : Word) :
    ((Target.sip.write v s).mip.getLsbD 13 = if s.midelegLcofi then v.getLsbD 13 else s.mip.getLsbD 13) ∧
    (Target.sip.write v s).mvipLcofi = if !s.midelegLcofi && s.mvienLcofi then v.getLsbD 13 else s.mvipLcofi :=
  State.setSipLcofi_of_views (s := { s with sip := _ }) h _

theorem Target.write_sie_of_views (v : Word) :
    ((Target.sie.write v s).mie.getLsbD 13 = if s.midelegLcofi then v.getLsbD 13 else s.mie.getLsbD 13) ∧
    (Target.sie.write v s).sie.getLsbD 13 =
      if !s.midelegLcofi && s.mvienLcofi then v.getLsbD 13 else s.sie.getLsbD 13 := by
  have hset (w : Word) := State.setSieLcofi_of_views (s := { s with sie := withBit w 13 (s.sie.getLsbD 13) }) h
  simp only [withBit_getLsbD_13] at hset
  exact hset _ _

theorem Target.write_vsip_of_views (v : Word) :
    ((Target.vsip.write v s).hvipLcofi =
      if !s.hidelegLcofi && s.hvienLcofi then v.getLsbD 13 else s.hvipLcofi) ∧
    ((Target.vsip.write v s).mip.getLsbD 13 =
      if s.hidelegLcofi && s.midelegLcofi then v.getLsbD 13 else s.mip.getLsbD 13) ∧
    (Target.vsip.write v s).mvipLcofi =
      if s.hidelegLcofi && !s.midelegLcofi && s.mvienLcofi then v.getLsbD 13 else s.mvipLcofi := 
  State.setVsipLcofi_of_views (s := { s with vsip := _ }) h _

theorem Target.write_vsie_of_views (v : Word) :
    ((Target.vsie.write v s).vsie.getLsbD 13 =
      if !s.hidelegLcofi && s.hvienLcofi then v.getLsbD 13 else s.vsie.getLsbD 13) ∧
    ((Target.vsie.write v s).mie.getLsbD 13 =
      if s.hidelegLcofi && s.midelegLcofi then v.getLsbD 13 else s.mie.getLsbD 13) ∧
    (Target.vsie.write v s).sie.getLsbD 13 =
      if s.hidelegLcofi && !s.midelegLcofi && s.mvienLcofi then v.getLsbD 13 else s.sie.getLsbD 13 := by
  have hset (w : Word) := State.setVsieLcofi_of_views (s := { s with vsie := withBit w 13 (s.vsie.getLsbD 13) }) h
  simp only [withBit_getLsbD_13] at hset
  exact hset _ _

end

/-! ## `sip` and `sie` (R189) -/

theorem State.mode_ne_vs_of_host {s : State} (hv : s.virt = false) (hu : s.priv ≠ .u) : s.mode ≠ .vs := by
  rcases State.mode_of_host hv hu with hm | hm <;> rw [hm] <;> nofun

/-- Settles O51: the access reaches the view, which reads and writes the bit it shows. -/
theorem supervisorLcofiViews : Obligations.SupervisorLcofiViews := by
  intro i s hviews hv hu hS hp
  have hvs := State.mode_ne_vs_of_host hv hu
  refine ⟨fun hn => ?_, fun hn => ?_⟩
  · have ha : s.access i.csrNum (wantsWrite i) = .reach .sip :=
      State.access_host hn hv hu (.inl rfl) rfl rfl hS (by rw [State.resolve, if_neg hvs])
    refine ⟨completes_of_reach ha hp,
      (trunc_withBit_getLsbD_13 _ _ _).trans (State.sipLcofi_of_views hviews), fun hw => ?_⟩
    rw [afterAccess_eq, if_pos hw]
    exact Target.write_sip_of_views hviews _
  · have ha : s.access i.csrNum (wantsWrite i) = .reach .sie :=
      State.access_host hn hv hu (.inl rfl) rfl rfl hS (by rw [State.resolve, if_neg hvs])
    refine ⟨completes_of_reach ha hp,
      (trunc_withBit_getLsbD_13 _ _ _).trans (State.sieLcofi_of_views hviews), fun hw => ?_⟩
    rw [afterAccess_eq, if_pos hw]
    exact Target.write_sie_of_views hviews _

/-! ## `vsip` and `vsie` (R187, R190, R191) -/

/-- From VS-mode the numbers of `sie` and `sip`, from M or HS mode their own numbers, reach `vsie` and `vsip`. -/
theorem State.access_guestLcofi {s : State} {n : CsrNum} {w : Bool} (hH : s.cfg.hasH = true)
    (hS : s.cfg.hasSMode = true) :
    ((s.mode = .vs ∧ n = 0x104) ∨ (s.virt = false ∧ s.priv ≠ .u ∧ n = 0x204) → s.access n w = .reach .vsie) ∧
    ((s.mode = .vs ∧ n = 0x144) ∨ (s.virt = false ∧ s.priv ≠ .u ∧ n = 0x244) → s.access n w = .reach .vsip) := by
  refine ⟨?_, ?_⟩ <;> rintro (⟨hm, rfl⟩ | ⟨hv, hu, rfl⟩)
  · exact (State.access_supervisorLcofi_guest hS hm).2
  · exact (State.access_guestLcofi_host hH hv hu).2
  · exact (State.access_supervisorLcofi_guest hS hm).1
  · exact (State.access_guestLcofi_host hH hv hu).1

/-- Settles O52: the access reaches the view, which reads and writes the bit it shows, through `sie` and `sip` where
`hideleg[13]` = 1. -/
theorem guestAcknowledgesItsLcofi : Obligations.GuestAcknowledgesItsLcofi := by
  intro i s hviews hH hS hp own toMip toMvip
  obtain ⟨hsie, hsip⟩ := State.access_guestLcofi (n := i.csrNum) (w := wantsWrite i) hH hS
  refine ⟨fun hn => ⟨completes_of_reach (hsie hn) hp,
      (trunc_withBit_getLsbD_13 _ _ _).trans (State.vsieLcofi_of_views hviews), fun hw => ?_⟩,
    fun hn => ⟨completes_of_reach (hsip hn) hp,
      (trunc_withBit_getLsbD_13 _ _ _).trans (State.vsipLcofi_of_views hviews), fun hw => ?_⟩⟩
  · rw [afterAccess_eq, if_pos hw]
    exact Target.write_vsie_of_views hviews _
  · rw [afterAccess_eq, if_pos hw]
    exact Target.write_vsip_of_views hviews _

/-! ## The mode a pending LCOFI goes to (R188 to R190, 60_exceptions.md R208) -/

theorem aiaEnv_ne_unconstrained_of_views {c : Config} (h : hasDefaultViews c = true) (id : Nat) :
    c.aiaEnv ≠ .unconstrained id := by
  intro ha
  rw [hasDefaultViews, ha] at h
  cases h

section
variable {s : State} (h : hasDefaultViews s.cfg = true) (hu : s.priv = .u)
include h hu

/-- From below S-mode M-mode takes an LCOFI that is pending, enabled and not delegated. -/
theorem State.lcofiForM_of_user :
    s.lcofiForM = (s.mip.getLsbD 13 && s.mie.getLsbD 13 && !s.midelegLcofi) := by
  unfold State.lcofiForM
  cases ha : s.cfg.aiaEnv with
  | unconstrained id => exact absurd ha (aiaEnv_ne_unconstrained_of_views h id)
  | _ => rw [hu]; exact Bool.and_true _

/-- From below S-mode HS-mode takes an LCOFI that is pending and enabled there and not delegated further. -/
theorem State.lcofiForHs_of_user (hS : s.cfg.hasSMode = true) :
    s.lcofiForHs = (s.sipLcofi && s.sieLcofi && !s.hidelegLcofi) := by
  have hadm : s.admitsTrapTo .hs = true := by simp only [State.admitsTrapTo, hS, hu]; rfl
  unfold State.lcofiForHs
  rw [hadm, Bool.true_and]
  cases ha : s.cfg.aiaEnv with
  | unconstrained id => exact absurd ha (aiaEnv_ne_unconstrained_of_views h id)
  | _ => simp [hu]

/-- From VU-mode VS-mode takes an LCOFI that is pending and enabled there. -/
theorem State.lcofiForVs_of_user (hH : s.cfg.hasH = true) (hv : s.virt = true) :
    s.lcofiForVs = (s.vsipLcofi && s.vsieLcofi) := by
  have hadm : s.admitsTrapTo .vs = true := by simp only [State.admitsTrapTo, hH, hv, hu]; rfl
  unfold State.lcofiForVs
  rw [hadm, Bool.true_and]
  cases ha : s.cfg.aiaEnv with
  | unconstrained id => exact absurd ha (aiaEnv_ne_unconstrained_of_views h id)
  | _ => simp [hu]

end

/-- Settles O57: each mode asks for the bits its views show, and no more privileged one wants the LCOFI. -/
theorem lcofiRouting : Obligations.LcofiRouting := by
  intro s hviews hS hu
  have hM := State.lcofiForM_of_user hviews hu
  have hHs := State.lcofiForHs_of_user hviews hu hS
  have hVs := State.lcofiForVs_of_user hviews hu
  have hsip := State.sipLcofi_of_views hviews
  have hsie := State.sieLcofi_of_views hviews
  have hvsip := State.vsipLcofi_of_views hviews
  have hvsie := State.vsieLcofi_of_views hviews
  refine ⟨fun hip hie => ⟨fun hd => ?_, fun hd hhd => ?_, fun hd hhd hv hH => ?_⟩,
    fun hip hd hhd hen hmvip hown => ?_, fun hip hmvip hhd hv hH hen hhvip hown => ?_⟩
  · rw [State.pendingLcofi, hM, hip, hie, hd]
    rfl
  · rw [State.pendingLcofi, hM, hHs, hsip, hsie, hip, hie, hd, hhd]
    rfl
  · rw [State.pendingLcofi, hM, hHs, hVs hH hv, hvsip, hvsie, hsip, hsie, hip, hie, hd, hhd]
    rfl
  · rw [State.pendingLcofi, hM, hHs, hsip, hsie, hip, hd, hhd, hen, hmvip, hown]
    rfl
  · have hnone : s.sipLcofi = false := by rw [hsip, hip, hmvip, Bool.and_false, ite_self]
    rw [State.pendingLcofi, hM, hHs, hVs hH hv, hvsip, hvsie, hnone, hip, hhd, hen, hhvip, hown]
    rfl

end Sys2Proof.Machine

/-! PROOFS. The statements of 60_exceptions.md: what a read of a user-level counter view does mode by mode, what taking
an exception or an LCOFI saves and where it enters, what returning restores, and that only a trap changes the mode. -/

namespace Sys2Proof.Machine

/-! ## Taking a trap (R212) -/

theorem Exc.code_ne_22_iff (e : Exc) : e.code ≠ 22 ↔ e ≠ .virtual := by
  cases e <;> decide

/-- The mode that takes an exception, by the delegation registers (R212). -/
theorem State.trapTarget_eq (s : State) (e : Exc) : s.trapTarget e =
    if s.cfg.hasSMode = true ∧ s.priv ≠ .m ∧ s.medeleg.getLsbD e.code = true then
      if s.virt = true ∧ e ≠ .virtual ∧ s.hedeleg.getLsbD e.code = true then .vs else .hs
    else .m := by
  simp only [State.trapTarget, State.medelegBit, State.hedelegBit, Bool.and_eq_true, bne_iff_ne, Exc.code_ne_22_iff,
    and_left_comm]

/-- Under the default `TrapEntry` an exception takes the sequence of R212 into its target. -/
theorem takeException_standard {s : State} (h : s.cfg.trapEntry = .standard) (e : Exc) (word : BitVec 32) :
    takeException e word s = standardTrapEntry (s.trapTarget e) (BitVec.ofNat 64 e.code) (s.trapValue word) none s :=
  enterTrap_standard h _ _ _ _

/-- Under a free `TrapEntry` an exception is what `freeTrapEntry` leaves, whichever mode would take it. -/
theorem takeException_free {s : State} {id : Nat} (h : s.cfg.trapEntry = .free id) (e : Exc) (word : BitVec 32) :
    takeException e word s = freeTrapEntry id (BitVec.ofNat 64 e.code) (s.trapValue word) s := by
  rw [takeException, enterTrap, h]

/-- A free `TrapEntry` leaves a mode the hart has, whatever the mode before (10_state.md R22). -/
theorem freeTrapEntry_modeWf (id : Nat) (cause tval : Word) (s : State) : (freeTrapEntry id cause tval s).modeWf := by
  obtain ⟨hpriv, hvirt, -⟩ := freeTrapEntry_mode id cause tval s
  exact ⟨hvirt, hpriv⟩

theorem TrapEntry.eq_free_of_ne_standard {t : TrapEntry} (h : t ≠ .standard) : ∃ id, t = .free id := by
  cases t with
  | standard => exact absurd rfl h
  | free id => exact ⟨id, rfl⟩

/-- Settles O53: the delegation registers give the target, and `standardTrapEntry` writes out each target's sequence; a
free `TrapEntry` writes the fields that these sequences write. -/
theorem trapEntrySequence : Obligations.TrapEntrySequence := by
  intro e word s cause tval toHs toVs standard
  have hcode : cause = BitVec.ofNat 64 e.code ∧ cause.toNat = e.code := by
    cases e <;> exact ⟨rfl, rfl⟩
  have htarget := s.trapTarget_eq e
  rw [← hcode.2] at htarget
  refine ⟨fun hstd hhs => ?_, fun hstd hhs hvs => ?_, fun hstd hvs => ?_, fun hfree => ?_⟩
  · rw [takeException_standard hstd, htarget, if_neg hhs, ← hcode.1]
    rfl
  · rw [takeException_standard hstd, htarget, if_pos hhs, if_neg fun h => hvs ⟨hhs, h⟩, ← hcode.1]
    rfl
  · rw [takeException_standard hstd, htarget, if_pos hvs.1, if_pos hvs.2, ← hcode.1]
    rfl
  · obtain ⟨id, hid⟩ := TrapEntry.eq_free_of_ne_standard hfree
    have hpc : (takeException e word s).pcWf := enterTrap_pcWf _ _ _ _ s
    rw [takeException_free hid] at hpc ⊢
    exact ⟨rfl, freeTrapEntry_modeWf id _ _ s, hpc⟩

/-! ## Returning from a trap (R213) -/

/-- SPP holds a mode below M-mode exactly. -/
theorem priv_of_spp {p : Priv} (h : p ≠ .m) : (if p == .s then .s else .u) = p := by
  cases p with
  | m => exact absurd rfl h
  | s | u => rfl

theorem State.mode_congr {s t : State} (hpriv : t.priv = s.priv) (hvirt : t.virt = s.virt) : t.mode = s.mode := by
  rw [State.mode, State.mode, hpriv, hvirt]

/-- The return restores `priv` and `V` from what the default entry saved: M-mode saves both, HS-mode and VS-mode one
bit of `priv`, and VS-mode no `V`. -/
theorem returnFromTrap_standardTrapEntry_mode {t : TrapTarget} (cause tval : Word) (c : Option Nat) {s : State}
    (hm : t ≠ .m → s.priv ≠ .m) (hvs : t = .vs → s.virt = true) :
    (returnFromTrap t (standardTrapEntry t cause tval c s)).priv = s.priv ∧
    (returnFromTrap t (standardTrapEntry t cause tval c s)).virt = s.virt := by
  cases t with
  | m => exact ⟨rfl, rfl⟩
  | hs => exact ⟨priv_of_spp (hm nofun), rfl⟩
  | vs => exact ⟨priv_of_spp (hm nofun), (hvs rfl).symm⟩

/-- The return restores the pc and the interrupt enable that the default entry saved, and leaves the other enables. -/
theorem returnFromTrap_standardTrapEntry_saved (t : TrapTarget) (cause tval : Word) (c : Option Nat) (s : State) :
    let r := returnFromTrap t (standardTrapEntry t cause tval c s)
    r.pc = s.pc ∧ r.mstatus.mie = s.mstatus.mie ∧ r.sstatus.sie = s.sstatus.sie ∧ r.vsstatus.sie = s.vsstatus.sie := by
  cases t <;> exact ⟨rfl, rfl, rfl, rfl⟩

/-- Returning from a trap leaves the general registers and every CSR but the trap registers. -/
theorem returnFromTrap_frame (t : TrapTarget) {s u : State} (h : sameCsrs s u) :
    (returnFromTrap t u).x = u.x ∧ sameCsrs s (returnFromTrap t u) := by
  cases t <;> exact ⟨rfl, h⟩

/-- Settles O54: entry and return are frames around the saved mode, pc and interrupt enable. -/
theorem returnRestoresWhatATrapSaved : Obligations.ReturnRestoresWhatATrapSaved := by
  intro t cause tval c s _ hm hvs hstd r
  obtain ⟨-, -, -, hx, -, -, hcsrs⟩ := enterTrap_frame t cause tval c s
  obtain ⟨hrx, hrcsrs⟩ := returnFromTrap_frame t hcsrs
  obtain ⟨hpriv, hvirt⟩ := returnFromTrap_standardTrapEntry_mode cause tval c hm hvs
  obtain ⟨hpc, hmie, hsie, hvsie⟩ := returnFromTrap_standardTrapEntry_saved t cause tval c s
  rw [← enterTrap_standard hstd] at hpriv hvirt hpc hmie hsie hvsie
  exact ⟨hpriv, hvirt, hpc, State.mode_congr hpriv hvirt, hmie, hsie, hvsie, hrx.trans hx, hrcsrs⟩

/-! ## What changes the mode (R218) -/

/-- Settles O55: a step takes an LCOFI or runs an instruction, which raises or leaves the mode. -/
theorem modeChangesOnlyByTrap : Obligations.ModeChangesOnlyByTrap := by
  intro s t h
  rcases step_next_cases h with hl | ⟨i, u, -, hi, hu, rfl⟩
  · exact .inr (.inl hl)
  · rcases exec_next_cases hu with ⟨e, ha, rfl⟩ | ⟨tgt, -, -, rfl⟩
    · exact .inr (.inr ⟨i, e, hi, exec_of_raise ha, rfl⟩)
    · obtain ⟨-, -, -, hpriv, hvirt, -⟩ := afterAccess_sameOutside i tgt s
      exact .inl ⟨(environment_priv _ _).trans hpriv, (environment_virt _ _).trans hvirt⟩

/-! ## Taking an LCOFI (R206, R207) -/

/-- Under the prompt `AiaEnv` a pending LCOFI is taken by this step (R206). -/
theorem State.lcofiTaken_of_prompt {s : State} (h : s.cfg.aiaEnv = .prompt) : s.lcofiTaken = s.pendingLcofi := by
  have hnow : s.takesLcofiNow = true := by rw [State.takesLcofiNow, h]
  rw [State.lcofiTaken, hnow, Bool.and_true]
  cases s.pendingLcofi <;> rfl

/-- Where an LCOFI enters: the vector base, or 13 words above it under the vectored mode. -/
theorem vectorEntry_lcofi (x : Xlen) (tvec : Word) : vectorEntry x tvec (some lcofiCode) =
    trunc x (if tvec &&& 3 = 1 then (tvec &&& ~~~3) + 52 else tvec &&& ~~~3) :=
  (apply_ite (trunc x) _ _ _).symm

/-- Under the prompt `AiaEnv` and the default `TrapEntry`, what a step from a state with a pending LCOFI answers. -/
theorem step_of_pendingLcofi {s : State} {l : TrapTarget} (haia : s.cfg.aiaEnv = .prompt)
    (hstd : s.cfg.trapEntry = .standard) (hl : s.pendingLcofi = some l) :
    step s = .next (environment s.noRetirement
      (standardTrapEntry l (lcofiCause s.cfg.xlen) 0 (some lcofiCode) s)) := by
  have htake : takeLcofi l s = standardTrapEntry l (lcofiCause s.cfg.xlen) 0 (some lcofiCode) s :=
    enterTrap_standard hstd _ _ _ _
  rw [step, State.lcofiTaken_of_prompt haia, hl, ← htake]

/-- Settles O56: the step is the sequence of R212 into the mode the LCOFI is pending for. -/
theorem pendingLcofiIsTakenFirst : Obligations.PendingLcofiIsTakenFirst := by
  intro s l haia hstd hl cause entry
  have hentry : ∀ tvec, vectorEntry s.cfg.xlen tvec (some lcofiCode) = entry tvec := vectorEntry_lcofi s.cfg.xlen
  rw [step_of_pendingLcofi haia hstd hl]
  refine ⟨?_, ?_, ?_⟩ <;> (rintro rfl; rw [← hentry]; rfl)

/-! ## The user-level counter views (R220) -/

/-- What `userCounterDenied` answers, mode by mode; `scounteren` is asked in U-mode on a hart with S-mode. -/
theorem State.userCounterDenied_by_mode (s : State) (j : CounterIx) :
    let m := s.mcounteren.getLsbD j.val
    let hc := s.hcounteren.getLsbD j.val
    let sc := s.scounteren.getLsbD j.val
    (s.mode = .m → s.userCounterDenied j = none) ∧
    (s.mode = .s → s.userCounterDenied j = if m then none else some .illegal) ∧
    (s.mode = .u → s.cfg.hasSMode = true → s.userCounterDenied j = if m && sc then none else some .illegal) ∧
    (s.mode = .vs → s.userCounterDenied j =
      if !m then some .illegal else if hc then none else some .virtual) ∧
    (s.mode = .vu → s.userCounterDenied j =
      if !m then some .illegal else if hc && sc then none else some .virtual) := by
  intro m hc sc
  have hnot (b : Bool) : ((!b) = true) = ¬ b = true := by rw [Bool.not_eq_true, Bool.not_eq_true']
  refine ⟨fun hm => ?_, fun hm => ?_, fun hm hS => ?_, fun hm => ?_, fun hm => ?_⟩ <;> rw [State.userCounterDenied, hm]
  · rw [hS, Bool.not_true, Bool.or_false]
  · simp only [hnot, ite_not]
    rfl
  · simp only [← Bool.not_and, hnot, ite_not]
    rfl

/-- A user-level counter view that exists is stopped as a read-only register, or by its enable registers: no level and
no state-enable bit applies to it. -/
theorem State.permission_userCounter_of_exists {s : State} {n : CsrNum} {j : CounterIx} {h : Half} {w : Bool}
    (hn : Csr.ofNumber n = some (.userCounter j h)) (hex : s.csrExists (.userCounter j h) = true) :
    s.permission n (.userCounter j h) w = if w then some .illegal else s.userCounterDenied j := by
  have hl : level n = .user := (Csr.of_number hn).1 nofun
  have hro : readOnlyNumber n = true := (Csr.of_number hn).2.1
  have hb : s.hstateenBlocks (.userCounter j h) = false := Bool.and_false _
  simp [State.permission, hex, hl, hro, hb, s.mstateenBlocks_of_not_gated (c := .userCounter j h) rfl]

/-- The outcome of a read that reaches `tgt` unless `denied` names an exception. -/
def ReadOutcome (i : Instr) (tgt : Target) (s : State) : Option Exc → Prop
  | none => s.pcInRange → Completes i s { s.setReg i.rd (tgt.read s) with pc := s.pc + 4 }
  | some e => Raises e i s

/-- A read of a user-level counter view that exists is decided by its enable registers, and gives the counter. -/
theorem readOutcome_userCounter {i : Instr} {s : State} {j : CounterIx} {h : Half} (hn : names i (.userCounter j h))
    (hex : s.csrExists (.userCounter j h) = true) (hw : wantsWrite i = false) :
    ReadOutcome i (.counter j h) s (s.userCounterDenied j) := by
  have hperm := State.permission_userCounter_of_exists (w := wantsWrite i) hn hex
  rw [if_neg (Bool.eq_false_iff.mp hw)] at hperm
  cases hd : s.userCounterDenied j with
  | some e => exact raises_of_denied hn (hperm.trans hd)
  | none =>
    intro hp
    have hc := completes_of_reach (State.access_of_permitted hn (hperm.trans hd)) hp
    rwa [afterAccess_of_read _ s hw] at hc

/-- Settles O46: a write attempt is stopped by the read-only number, a read by what `userCounterDenied` answers. -/
theorem userCounterViewOutcomes : Obligations.UserCounterViewOutcomes := by
  intro i s j h hn hex m hc sc reads
  refine ⟨fun hw => raises_of_denied hn ?_, fun hw => ?_⟩
  · rw [State.permission_userCounter_of_exists hn hex, if_pos hw]
  · have hread := readOutcome_userCounter hn hex hw
    obtain ⟨hM, hS, hU, hVs, hVu⟩ := s.userCounterDenied_by_mode j
    refine ⟨fun hm => ?_, fun hm => ?_, fun hm hsm => ?_, fun hm => ?_, fun hm => ?_⟩
    · rwa [hM hm] at hread
    · rwa [hS hm, apply_ite (ReadOutcome i _ s)] at hread
    · rwa [hU hm hsm, apply_ite (ReadOutcome i _ s)] at hread
    · rwa [hVs hm, apply_ite (ReadOutcome i _ s), apply_ite (ReadOutcome i _ s)] at hread
    · rwa [hVu hm, apply_ite (ReadOutcome i _ s), apply_ite (ReadOutcome i _ s)] at hread

end Sys2Proof.Machine

/-! PROOFS. The statements of 70_reset_and_hazards.md: how far the environment advances a counter and what an overflow
sets, that nothing else of the hart changes, and that `minstret` counts the instructions that retire. -/

namespace Sys2Proof.Machine

/-! ## Which counters run (R238) -/

/-- A counter is filtered by the bit of the current mode, where it has that bit (10_state.md R30, R31). -/
theorem State.filtered_iff (s : State) (i : CounterIx) : s.filtered i = true ↔
    ((3 ≤ i.val ∧ s.cfg.hasSscofpmf = true) ∨ ((i = 0 ∨ i = 2) ∧ s.cfg.hasSmcntrpmf = true)) ∧
      (s.counterCfg i).getLsbD (inhibitBit s.mode) = true := by
  rw [State.filtered, Bool.and_eq_true, hasInhibitBits_iff]

/-- A counter runs that is not inhibited, not filtered and not hard-wired to zero. -/
theorem State.counterRuns_iff (s : State) (i : CounterIx) : s.counterRuns i = true ↔
    s.mcountinhibit.getLsbD i.val = false ∧ ¬ s.filtered i = true ∧ s.cfg.counterWmask.get i ≠ 0 := by
  simp [State.counterRuns, and_assoc]

/-- A counter that is inhibited, filtered or hard-wired to zero does not move; the time counter is the platform's. -/
theorem State.counterDelta_of_stopped (r : Retirement) {s : State} {i : CounterIx} (hi : i ≠ 1) :
    (s.mcountinhibit.getLsbD i.val = true → s.counterDelta r i = 0) ∧
    (s.filtered i = true → s.counterDelta r i = 0) ∧
    (s.cfg.counterWmask.get i = 0 → s.counterDelta r i = 0) := by
  refine ⟨fun hinh => ?_, fun hf => ?_, State.counterDelta_of_hardwired r hi⟩
  · simp [State.counterDelta, State.counterRuns, hi, hinh]
  · simp [State.counterDelta, State.counterRuns, hi, hf]

/-! ## How far `minstret` advances (R238, 42_indirect_counter_access.md R153) -/

/-- `minstret` does not move where no instruction retires, or where the one that does writes it. -/
theorem State.counterDelta_instret_of_not_counted {r : Retirement} (h : r.retired = false ∨ r.wroteInstret = true)
    (s : State) : s.counterDelta r 2 = 0 := by
  have hd : instretDelta r s.draws = 0 := by rcases h with h | h <;> simp [instretDelta, h]
  simp [State.counterDelta, hd]

/-- An instruction that retires and does not write `minstret` counts 1 where it runs before and after. -/
theorem State.counterDelta_instret_of_counted {r : Retirement} (hret : r.retired = true) (hw : r.wroteInstret = false)
    (hran : r.instretRan = true) {s : State} (hruns : s.counterRuns 2 = true) : s.counterDelta r 2 = 1 := by
  simp [State.counterDelta, hruns, instretDelta, hret, hw, hran]

/-! ## What an overflow sets (R238, 45_lcofi.md R192) -/

/-- A counter overflows when it has the OF bit, that bit is clear, and it wraps. -/
theorem State.overflows_iff (r : Retirement) (s : State) (i : CounterIx) : s.overflows r i = true ↔
    3 ≤ i.val ∧ s.cfg.hasSscofpmf = true ∧ (s.counterCfg i).getLsbD 63 = false ∧
      2 ^ 64 ≤ (s.counter i).toNat + s.counterDelta r i := by
  have hex : hasOverflowFlag s.cfg i = true ↔ 3 ≤ i.val ∧ s.cfg.hasSscofpmf = true := by
    rw [hasOverflowFlag, Bool.and_eq_true, decide_eq_true_eq]
  rw [← and_assoc, ← hex]
  cases hof : hasOverflowFlag s.cfg i <;> simp [State.overflows, State.overflowFlag, hof]

/-- A register in which a condition sets one bit. -/
theorem ite_withBit_bits (p : Prop) [Decidable p] (w : Word) {k : Nat} (hk : k < 64) :
    let r := if p then withBit w k true else w
    (p → r.getLsbD k = true) ∧ (¬ p → r = w) ∧ ∀ j, j < 64 → j ≠ k → r.getLsbD j = w.getLsbD j := by
  refine ⟨fun h => ?_, fun h => if_neg h, fun j hj hjk => ?_⟩
  · rw [if_pos h, withBit_getLsbD _ _ _ _ hk, if_pos rfl]
  · rw [apply_ite (BitVec.getLsbD · j), withBit_getLsbD _ _ _ _ hj, if_neg hjk, ite_self]

/-- A configuration register after `CounterEnv`: an overflow sets OF, and nothing else moves. -/
theorem counterEnv_counterCfg_bits (r : Retirement) (s : State) (i : CounterIx) :
    let c := (counterEnv r s).counterCfg i
    (s.overflows r i = true → c.getLsbD 63 = true) ∧ (¬ s.overflows r i = true → c = s.counterCfg i) ∧
    ∀ j, j < 63 → c.getLsbD j = (s.counterCfg i).getLsbD j := by
  rw [counterEnv_counterCfg]
  obtain ⟨hset, hkept, hother⟩ := ite_withBit_bits (s.overflows r i = true) (s.counterCfg i) (k := 63) (by decide)
  exact ⟨hset, hkept, fun j hj => hother j (by omega) (by omega)⟩

/-- `mip` after `CounterEnv`: an overflow of any counter sets bit 13, and nothing else moves. -/
theorem counterEnv_mip_bits (r : Retirement) (s : State) :
    let m := (counterEnv r s).mip
    ((∃ i, s.overflows r i = true) → m.getLsbD 13 = true) ∧ ((¬ ∃ i, s.overflows r i = true) → m = s.mip) ∧
    ∀ j, j < 64 → j ≠ 13 → m.getLsbD j = s.mip.getLsbD j := by
  have hany : (∃ i, s.overflows r i = true) ↔ (List.finRange 32).any (s.overflows r) = true := by simp
  rw [hany, counterEnv_mip]
  exact ite_withBit_bits _ s.mip (by decide)

/-! ## What the environment leaves unchanged (R238, 45_lcofi.md R193) -/

/-- `CounterEnv` moves the counters, their configuration registers, `mip` and the model's own draws; no other register,
and neither the parameters, memory nor the mode. -/
theorem counterEnv_frame (r : Retirement) (s : State) : let t := counterEnv r s
    sameOutside { s with draws := t.draws } t ∧ sameCsrs { s with ctr := t.ctr, ccfg := t.ccfg, mip := t.mip } t := by
  simp [sameOutside, sameCsrs]

/-- `AiaEnv` moves the pending, enable and view registers of the LCOFI bits, and nothing else. -/
theorem aiaMoves_frame (s : State) : let u := aiaMoves s
    u = { s with
      mip := u.mip, mie := u.mie, sip := u.sip, sie := u.sie, mvip := u.mvip, hvip := u.hvip, vsip := u.vsip
      vsie := u.vsie } := by
  unfold aiaMoves
  split <;> rfl

/-- Settles O58: `d` is `counterDelta`, a wrap is `overflows`, and the state before `CounterEnv` is `aiaMoves s`. -/
theorem counterEnvContract : Obligations.CounterEnvContract := by
  intro r s
  refine ⟨s.counterDelta r, ?_⟩
  intro t wraps inh filtered
  have hwraps (i : CounterIx) : wraps i ↔ s.overflows r i = true := (s.overflows_iff r i).symm
  have hfiltered (i : CounterIx) : filtered i ↔ s.filtered i = true := (s.filtered_iff i).symm
  simp only [hwraps, hfiltered]
  obtain ⟨hset, hkept, hother⟩ := counterEnv_mip_bits r s
  obtain ⟨houtside, hcsrs⟩ := counterEnv_frame r s
  refine ⟨counterEnv_counter r s, fun i hi => State.counterDelta_of_stopped r hi,
    fun h => s.counterDelta_instret_of_not_counted h, fun hret hw hran hinh hf hmask => ?_,
    counterEnv_counterCfg_bits r s, hset, hkept, hother, houtside, hcsrs, rfl, rfl, aiaMoves s, rfl, aiaMoves_default,
    aiaMoves_frame s, aiaMoves_bits s⟩
  exact State.counterDelta_instret_of_counted hret hw hran ((s.counterRuns_iff 2).mpr ⟨hinh, hf, hmask⟩)

/-! ## `minstret` over a step (R238) -/

/-- A raised exception is no retirement. -/
theorem State.retirement_of_raise {s : State} {i : Instr} {e : Exc}
    (h : s.access i.csrNum (wantsWrite i) = .raise e) :
    s.retirement i = { retired := false, wroteInstret := false, instretRan := s.counterRuns 2 } := by
  rw [State.retirement, h]

/-- An access that reaches a target retires. -/
theorem State.retirement_of_reach {s : State} {i : Instr} {tgt : Target}
    (h : s.access i.csrNum (wantsWrite i) = .reach tgt) : s.retirement i =
      { retired := true, wroteInstret := wantsWrite i && isInstret tgt, instretRan := s.counterRuns 2 } := by
  rw [State.retirement, h]

/-- The retirement says that the instruction wrote `minstret` exactly when it wrote one of its halves. -/
theorem writesInstret_iff (i : Instr) (tgt : Target) :
    (wantsWrite i && isInstret tgt) = true ↔ wantsWrite i = true ∧ ∃ h, tgt = .counter 2 h := by
  rw [Bool.and_eq_true]
  refine and_congr_right fun _ => ?_
  cases tgt <;> simp [isInstret]

theorem counter_of_sameCsrs {s t : State} (h : sameCsrs s t) (i : CounterIx) : t.counter i = s.counter i := by
  obtain ⟨-, -, -, -, -, hctr, -⟩ := h
  rw [State.counter, hctr, State.counter]

/-- An instruction that does not write `minstret` leaves it. -/
theorem afterAccess_instret {i : Instr} {tgt : Target} (s : State)
    (hw : ¬ (wantsWrite i = true ∧ ∃ h, tgt = .counter 2 h)) : (afterAccess i tgt s).counter 2 = s.counter 2 := by
  cases hwrite : wantsWrite i with
  | false => exact counter_of_sameCsrs (afterAccess_sameCsrs tgt s hwrite) 2
  | true =>
    obtain ⟨-, -, -, -, -, hctr, -⟩ := afterAccess_onlyTargetDiffers i tgt s
    exact hctr 2 fun h htgt => hw ⟨hwrite, h, htgt⟩

/-- When no LCOFI is taken, a step that answers is the fetched instruction with the environment after it. -/
theorem eq_environment_of_step {s t : State} {i : Instr} (hl : s.lcofiTaken = none) (hf : s.fetch = .instr i)
    (h : step s = .next t) : ∃ u, exec i s = .next u ∧ t = environment (s.retirement i) u := by
  rcases step_next_cases h with ⟨l, hl', -⟩ | ⟨i', u, -, hf', hu, rfl⟩
  · cases hl.symm.trans hl'
  · cases hf.symm.trans hf'
    exact ⟨u, hu, rfl⟩

/-- What an instruction that raises leaves. -/
theorem eq_takeException_of_raise {i : Instr} {s u : State} {e : Exc}
    (ha : s.access i.csrNum (wantsWrite i) = .raise e) (hu : exec i s = .next u) :
    u = takeException e (encode i) s := by
  cases hu.symm.trans (exec_of_raise ha)
  rfl

/-- What an instruction that reaches a target leaves when it gives a next state. -/
theorem eq_afterAccess_of_reach {i : Instr} {s u : State} {tgt : Target}
    (ha : s.access i.csrNum (wantsWrite i) = .reach tgt) (hu : exec i s = .next u) : u = afterAccess i tgt s := by
  rcases exec_next_cases hu with ⟨e, ha', -⟩ | ⟨tgt', ha', -, rfl⟩
  · cases ha.symm.trans ha'
  · cases ha.symm.trans ha'
    rfl

/-- Settles O59: what the trap or the access leaves in `minstret`, and what `counterDelta` adds to it. -/
theorem instretCountsRetiredInstructions : Obligations.InstretCountsRetiredInstructions := by
  intro s t i hl hf hstep
  obtain ⟨u, hu, rfl⟩ := eq_environment_of_step hl hf hstep
  rw [environment_counter]
  refine ⟨fun e ha => ?_, fun tgt ha => ?_⟩
  · rw [State.retirement_of_raise ha, State.counterDelta_instret_of_not_counted (.inl rfl),
      eq_takeException_of_raise ha hu, counter_of_sameCsrs (takeException_sameCsrs e (encode i) s)]
    exact BitVec.add_zero _
  · rw [State.retirement_of_reach ha, eq_afterAccess_of_reach ha hu]
    refine ⟨fun hw => ?_, fun hw hran hruns => ?_⟩ <;> rw [← writesInstret_iff] at hw
    · rw [State.counterDelta_instret_of_not_counted (.inr hw)]
      exact BitVec.add_zero _
    · rw [State.counterDelta_instret_of_counted rfl (Bool.eq_false_iff.mpr hw) hran hruns,
        afterAccess_instret s (mt (writesInstret_iff i tgt).mpr hw)]
      rfl

end Sys2Proof.Machine
